-- ==== Sys2Proof/Word.lean ====
section
/-! DEFINITION. Words of the block: every value is an unsigned vector of a stated width (00_scope.md R12). -/

namespace Sys2Proof

/-- 8 bits: a Frame Buffer byte, a trace entry, the counter, the selector word (R12, R38, R39, R21, R94). -/
abbrev Byte := BitVec 8

/-- 16 bits: `humidity` and `temperature` (R24, R25). -/
abbrev Word16 := BitVec 16

/-- 6 bits: `symidx` and `scnt` (R22, R40). -/
abbrev SymIdx := BitVec 6

end Sys2Proof
end

