-- ==== Sys2Proof/Config.lean ====
section
/-! DEFINITION. What is fixed for the machine: the constants of 00_scope.md R9, the parameter values that reset takes
(R10), and the free values (constants with no body) that stand for what the spec leaves open. -/

namespace Sys2Proof.Config

/-- Entries of the Frame Buffer, `N_BYTES` (R9). -/
abbrev bufLen : Nat := 5

/-- Entries of the diagnostic trace, `TRACE_LEN` (R9, R39). -/
abbrev traceLen : Nat := 43

/-- The counter ceiling, `CEILING` (R9). -/
abbrev ceiling : Byte := 255

/-- `symidx` while the second preamble symbol is awaited, `N_PRE - 1` (R9, R22). -/
abbrev lastPreamble : SymIdx := 1

/-- `symidx` while the last data symbol is awaited, `N_SYM - 1` (R9, R22). -/
abbrev lastData : SymIdx := 41

/-- `THRESHOLD` at reset: the default 28 of R10, legal in 0..254. -/
def threshold : Fin 255 := 28

/-- OPEN in R10: `RESET_TICKS - 1`, any natural number. DESIGN CHOICE, log 2. -/
opaque resetTicksLessOne : Nat

/-- `RESET_TICKS` at reset, OPEN in R10 and at least 1. DESIGN CHOICE, log 2. -/
def resetTicks : Nat := resetTicksLessOne + 1

/-- `DIAG`, OPEN in R10 (a build-time choice, R39). DESIGN CHOICE, log 2. -/
opaque diag : Bool

/-- Free level of input `rst` in a tick for which no input is pending (R44). Log 1. -/
opaque freeRst : Nat → Bool

/-- Free level of input `start` in a tick for which no input is pending (R44). Log 1. -/
opaque freeStart : Nat → Bool

/-- Free level of input `pin` in a tick for which no input is pending (R44, R66). Log 1. -/
opaque freePin : Nat → Bool

/-- What `humidity` holds after an HRESET, by the tick's number: unspecified (R43, R200; 93 I21). Log 3, log 4. -/
opaque freeHumidity : Nat → Word16

/-- What `temperature` holds after an HRESET: unspecified (R43, R200; 93 I21). Log 3, log 4. -/
opaque freeTemperature : Nat → Word16

/-- What `checksum_valid` holds after an HRESET: unspecified (R43, R200; 93 I21). Log 3, log 4. -/
opaque freeChecksumValid : Nat → Bool

/-- Frame Buffer bytes after a `ShiftIn` outside the domain R150 states (tick's number, index). Log 6. -/
opaque freeBufByte : Nat → Nat → Byte

/-- Trace bytes after a `Complete` outside the domain R113 states (tick's number, index). Log 7. -/
opaque freeTraceByte : Nat → Nat → Byte

end Sys2Proof.Config
end

