-- ==== Sys2Proof/Machine/State.lean ====
section
/-! DEFINITION. The state of the block (10_state.md R20), its parameters (00_scope.md R10), the inputs of a tick (R35),
the reasons a step can stop, and the state after reset (R43). Plain data. -/

namespace Sys2Proof.Machine

/-- The Frame Decoder's state `fsm` (R27), all eight codes of its 3 bits. DEDUCED, log 5. -/
inductive Fsm where
  /-- 0: no decode cycle is in progress. -/
  | idle
  /-- 1: the line is driven low. -/
  | reset
  /-- 2: the line is driven high for one tick. -/
  | handshake
  /-- 3: reserved, never entered by any operation (R100). -/
  | reserved3
  /-- 4: the Bit Sampler runs; completed symbols are discarded. -/
  | preamble
  /-- 5: the Bit Sampler runs; completed symbols are shifted into `buf`. -/
  | data
  /-- 6: fields are extracted and the checksum is checked. -/
  | validate
  /-- 7: the critical section is closed. -/
  | done
deriving DecidableEq, Repr

/-- The Bit Sampler's phase `ph` (R28). -/
inductive Phase where
  /-- 0: wait for the line to go high. -/
  | sync
  /-- 1: count the high samples. -/
  | measure
deriving DecidableEq, Repr

/-- The input ports in one tick (R35). -/
structure Inputs where
  rst : Bool
  start : Bool
  pin : Bool
deriving DecidableEq, Repr

/-- The static parameters the rules read (R10, R36). `THRESHOLD` is legal in 0..254 only, so its type is `Fin 255`. -/
structure Params where
  /-- `THRESHOLD` (R10, R114). -/
  threshold : Fin 255
  /-- `RESET_TICKS` (R10, R131); legal when at least 1 (`Params.Legal`). -/
  resetTicks : Nat
deriving DecidableEq, Repr

/-- A byte space (R13, R41): (index, byte) pairs in one canonical form (`Memory.wf`); an unlisted index reads 0. Log 9. -/
abbrev Memory := List Host.Cell

/-- The diagnostic registers (R39, R40). They exist only when `DIAG`. -/
structure Diag where
  /-- `trace[0..42]` (R39, R63). -/
  trace : Memory
  /-- `scnt` (R40). -/
  scnt : SymIdx
deriving DecidableEq, Repr

/-- The machine: the registers of R20; then the static parameters and the model's own two fields. -/
structure State where
  /-- Frame Decoder state (R27). -/
  fsm : Fsm
  /-- Bit Sampler phase (R28). -/
  ph : Phase
  /-- Pulse-duration counter (R21). -/
  cnt : Byte
  /-- Symbols completed in this decode cycle (R22). -/
  symidx : SymIdx
  /-- Remaining ticks of the reset pulse (R23). Its width `W_RST` is an invariant, log 8. -/
  rstCnt : Nat
  /-- Frame Buffer `buf[0..4]` (R38, R62). -/
  buf : Memory
  /-- Reading field (R24). -/
  humidity : Word16
  /-- Reading field (R25). -/
  temperature : Word16
  /-- Reading field (R30). -/
  checksumValid : Bool
  /-- The Reading has been populated since reset (R31). -/
  valid : Bool
  /-- Critical section: host interrupt suppression request (R32). -/
  crit : Bool
  /-- Line direction, 1 = output (R37). -/
  pinOe : Bool
  /-- Level driven when `pinOe` (R37). -/
  pinOut : Bool
  /-- Diagnostic registers; `none` when the parameter `DIAG` is false: then they do not exist (R39, R185). Log 2. -/
  diag : Option Diag
  /-- Static parameters, written by nothing (R36, R219). Log 2. -/
  params : Params
  /-- MODEL'S OWN: the inputs of the coming ticks, this tick's first (R14, R44). Log 1. -/
  pending : List Inputs
  /-- MODEL'S OWN: the tick's number, to which the free values are applied (R14). Log 12. -/
  tick : Nat
deriving DecidableEq, Repr

/-- Reasons to stop with a fault: none. "The block raises no synchronous exception, has no fault state" (60 R170; 93: no
case of this block uses the treatment fault). Safe. Log 11. -/
inductive Fault
deriving DecidableEq, Repr

/-- Reasons an operation has no meaning. -/
inductive Refusal where
  /-- Raised by `exec` for an operation whose meaning is not written yet (none is). Safe. -/
  | notModelled (mnemonic : String)
  /-- Raised by RSVD3: `fsm = 3` has "no meaning" and must be refused (30 R100; 93 I23). Safe. Log 5. -/
  | reservedFsm
  /-- Raised by `step` if no row of the operation map admitted the selector word; the rows are exhaustive (R95), so it
  never is. Safe. Log 14. -/
  | noRow
deriving DecidableEq, Repr

/-- The parameters at reset (R10). Log 2. -/
def Params.atReset : Params := { threshold := Config.threshold, resetTicks := Config.resetTicks }

/-- The machine right after reset: the values of R43. The three Reading fields are unspecified there: free values, log 3.
Nothing is pending (log 1) and the tick is 0 (log 12). -/
def State.reset : State where
  fsm := .idle
  ph := .sync
  cnt := 0
  symidx := 0
  rstCnt := 0
  buf := []
  humidity := Config.freeHumidity 0
  temperature := Config.freeTemperature 0
  checksumValid := Config.freeChecksumValid 0
  valid := false
  crit := false
  pinOe := false
  pinOut := true
  diag := if Config.diag then some { trace := [], scnt := 0 } else none
  params := Params.atReset
  pending := []
  tick := 0

end Sys2Proof.Machine
end

