-- ==== Sys2Proof/Machine/Operands.lean ====
section
/-! DEFINITION. The operands an operation uses (30_encoding.md section 2): the inputs of the tick, the Frame Buffer index
of a data symbol, the shifted byte, the two 16-bit fields and the checksum's sum. -/

namespace Sys2Proof.Machine

/-- The inputs of this tick: the first pending ones, else free levels (R14, R44). Log 1. -/
def State.inputs (s : State) : Inputs :=
  match s.pending with
  | x :: _ => x
  | [] => { rst := Config.freeRst s.tick, start := Config.freeStart s.tick, pin := Config.freePin s.tick }

/-- `PinRead()`: the level of input `pin` in this tick (R66). -/
def State.pinRead (s : State) : Bool := s.inputs.pin

/-- The byte index `(symidx - 2) div 8` of the awaited data symbol, by 6-bit subtraction (R150, R158). -/
def bufIndex (symidx : SymIdx) : Nat := (symidx - 2).toNat / 8

/-- `trunc_8((b << 1) | zext_8(sym))` (R85, R150). -/
def shiftByte (b : Byte) (sym : Bool) : Byte := (b <<< 1) ||| (BitVec.ofBool sym).setWidth 8

/-- Big-endian pairing `{hi, lo}` (R61, R86). -/
def bigEndian (hi lo : Byte) : Word16 := hi ++ lo

/-- The sum of the four checksum operands, each zero-extended to 10 bits, truncated to 8 (R87, R153). -/
def checksumSum (b0 b1 b2 b3 : Byte) : Byte :=
  (b0.setWidth 10 + b1.setWidth 10 + b2.setWidth 10 + b3.setWidth 10).setWidth 8

end Sys2Proof.Machine
end

