-- ==== Sys2Proof/Machine/Flags.lean ====
section
/-! DEFINITION. Every predicate and flag computation: the terminal count (R94), the classification (R114), the checksum
flag (R155), and the two derived outputs (R34). -/

namespace Sys2Proof.Machine

/-- `fsm` is PREAMBLE or DATA: a sampler tick (R66, R103). -/
def Fsm.isSampler : Fsm → Bool
  | .preamble | .data => true
  | .idle | .reset | .handshake | .reserved3 | .validate | .done => false

/-- The terminal-count predicate `tc` (R94). -/
def State.terminalCount (s : State) : Bool :=
  (decide (s.fsm = .reset) && decide (s.rstCnt ≤ 1)) ||
  (s.fsm.isSampler && decide (s.ph = .measure) && decide (254 ≤ s.cnt.toNat))

/-- `Classify(c)`: 1 iff `c > THRESHOLD`, unsigned (R81, R114). -/
def classify (threshold : Fin 255) (c : Byte) : Bool := decide (threshold.val < c.toNat)

/-- The checksum law: the truncated sum of the first four bytes equals the fifth (R153, R155). -/
def checksumHolds (b0 b1 b2 b3 b4 : Byte) : Bool := checksumSum b0 b1 b2 b3 == b4

/-- Output `busy` (R34). -/
def State.busy (s : State) : Bool := decide (s.fsm ≠ .idle)

/-- Output `done` (R34). -/
def State.done (s : State) : Bool := decide (s.fsm = .done)

end Sys2Proof.Machine
end

