-- ==== Sys2Proof/Machine/Ops.lean ====
section
/-! DEFINITION. The shared operations: reading and writing a byte space, the critical section's entry and exit (the
block takes no exception, R170; this bracket is the one mechanism of the kind, R174 to R179), clearing for a new cycle,
`Complete`, `ShiftIn`, and the advance to the next symbol. -/

namespace Sys2Proof.Machine

/-- What an index that nothing lists reads as: 0, the reset content of `buf` and `trace` (R43). Log 9. -/
def Memory.unlisted : Byte := 0

/-- `MemRead`: the byte at an index (R13). -/
def Memory.read : Memory → Nat → Byte
  | [], _ => Memory.unlisted
  | (b, v) :: rest, a => if b = a then v else Memory.read rest a

/-- The space without any entry for an index. -/
def Memory.erase (m : Memory) (a : Nat) : Memory := m.filter fun c => c.1 != a

/-- The space with an entry placed before the first entry of a greater index. -/
def Memory.place (a : Nat) (v : Byte) : Memory → Memory
  | [] => [(a, v)]
  | (b, w) :: rest => if a < b then (a, v) :: (b, w) :: rest else (b, w) :: Memory.place a v rest

/-- `MemWrite`: the space after a byte is written (R13). Writing what an unlisted index reads as removes the entry. -/
def Memory.write (m : Memory) (a : Nat) (v : Byte) : Memory :=
  if v = Memory.unlisted then m.erase a else Memory.place a v (m.erase a)

/-- A space of `n` entries with every byte written from `f`. -/
def Memory.ofFn : Nat → (Nat → Byte) → Memory
  | 0, _ => []
  | n + 1, f => (Memory.ofFn n f).write n (f n)

/-- The canonical form of a space of `size` entries: indexes strictly rising and below `size`, no entry that reads as an
unlisted index does. -/
abbrev Memory.wf (size : Nat) (m : Memory) : Prop :=
  m.Pairwise (fun c d => c.1 < d.1) ∧ ∀ c ∈ m, c.1 < size ∧ c.2 ≠ Memory.unlisted

/-- The diagnostic registers as START and HRESET leave them (R131, R200). -/
def Diag.cleared : Diag := { trace := [], scnt := 0 }

/-- `trace[scnt] <- c ; scnt <- scnt + 1`, `scnt` as at the beginning of the tick (R73, R113). R113 states it for
`scnt <= 41`; an index past entry 42 names no entry, and the trace is then free. Log 7. -/
def Diag.record (d : Diag) (c : Byte) (tick : Nat) : Diag where
  trace :=
    if d.scnt.toNat < Config.traceLen then d.trace.write d.scnt.toNat c
    else Memory.ofFn Config.traceLen (Config.freeTraceByte tick)
  scnt := d.scnt + 1

/-- Entry of the critical section: its only state change is `crit <- 1` (R175). -/
def State.enterCritical (s : State) : State := { s with crit := true }

/-- Exit from the critical section: its only state change is `crit <- 0` (R176). -/
def State.leaveCritical (s : State) : State := { s with crit := false }

/-- What START and HRESET clear alike (R131, R200): the Frame Buffer, `symidx`, `cnt`, `ph`, and with `DIAG` the trace
and `scnt`. -/
def State.clearCycle (s : State) : State :=
  { s with buf := [], symidx := 0, cnt := 0, ph := .sync, diag := s.diag.map fun _ => Diag.cleared }

/-- `Complete(c)` (R113): the trace records `c`, the sampler is back in SYNC, `cnt` holds `c`. The symbol it returns is
`classify s.params.threshold c`. -/
def State.complete (s : State) (c : Byte) : State :=
  { s with ph := .sync, cnt := c, diag := s.diag.map fun d => d.record c s.tick }

/-- `ShiftIn(sym)` (R150), `symidx` as at the beginning of the tick. R150 states it for `2 <= symidx <= 41`; another
`symidx` names no buffer byte, and the buffer is then free. Log 6. -/
def State.shiftIn (s : State) (sym : Bool) : State :=
  let i := bufIndex s.symidx
  { s with
    buf :=
      if i < Config.bufLen then s.buf.write i (shiftByte (s.buf.read i) sym)
      else Memory.ofFn Config.bufLen (Config.freeBufByte s.tick) }

/-- `symidx <- symidx + 1`, and to state `after` if `symidx`, as at the beginning of the tick, is `last` (R135, R151). -/
def State.nextSymbol (s : State) (last : SymIdx) (after : Fsm) : State :=
  { s with symidx := s.symidx + 1, fsm := if s.symidx = last then after else s.fsm }

/-- Completion of a preamble symbol with final count `c`: the symbol is discarded (R135, R136). -/
def State.completePreamble (s : State) (c : Byte) : State :=
  (s.complete c).nextSymbol Config.lastPreamble .data

/-- Completion of a data symbol with final count `c`: the symbol is shifted in (R151, R152). -/
def State.completeData (s : State) (c : Byte) : State :=
  ((s.complete c).shiftIn (classify s.params.threshold c)).nextSymbol Config.lastData .validate

end Sys2Proof.Machine
end

