-- ==== Sys2Proof/Machine/Assembly.lean ====
section
/-! DEFINITION. Bit-to-byte assembly, field extraction and checksum (42_assembly_checksum.md). -/

namespace Sys2Proof.Machine

/-- PEND.D (R151): a data symbol ends by a low sample. -/
def execPendD (s : State) : Host.Outcome State Fault Refusal := .next (s.completeData s.cnt)

/-- OVR.D (R152): a data symbol ends by the ceiling. -/
def execOvrD (s : State) : Host.Outcome State Fault Refusal := .next (s.completeData Config.ceiling)

/-- VALIDATE (R153): the Reading is written whole, whether or not the checksum holds. -/
def execValidate (s : State) : Host.Outcome State Fault Refusal :=
  .next
    { s with
      humidity := bigEndian (s.buf.read 0) (s.buf.read 1)
      temperature := bigEndian (s.buf.read 2) (s.buf.read 3)
      checksumValid :=
        checksumHolds (s.buf.read 0) (s.buf.read 1) (s.buf.read 2) (s.buf.read 3) (s.buf.read 4)
      valid := true
      fsm := .done }

end Sys2Proof.Machine
end

