-- ==== Sys2Proof/Machine/BitSampler.lean ====
section
/-! DEFINITION. The Bit Sampler's spin loop (40_bit_sampler.md section 2). -/

namespace Sys2Proof.Machine

/-- SYNCWAIT (R110): no state change; there is no timeout. -/
def execSyncwait (s : State) : Host.Outcome State Fault Refusal := .next s

/-- SYNCHIT (R111): the high sample that ends the sync phase is not counted. -/
def execSynchit (s : State) : Host.Outcome State Fault Refusal := .next { s with ph := .measure, cnt := 0 }

/-- COUNT (R112): one more high sample. Selected only while `cnt <= 253`. -/
def execCount (s : State) : Host.Outcome State Fault Refusal := .next { s with cnt := s.cnt + 1 }

end Sys2Proof.Machine
end

