-- ==== Sys2Proof/Machine/FrameDecoder.lean ====
section
/-! DEFINITION. The Frame Decoder's operations (41_frame_decoder.md section 2). -/

namespace Sys2Proof.Machine

/-- NOP (R130): no state change. -/
def execNop (s : State) : Host.Outcome State Fault Refusal := .next s

/-- START (R131): clears for a new cycle and begins the reset pulse. `crit`, `valid` and the Reading are not touched. -/
def execStart (s : State) : Host.Outcome State Fault Refusal :=
  .next { s.clearCycle with rstCnt := s.params.resetTicks, pinOe := true, pinOut := false, fsm := .reset }

/-- RSTWAIT (R132). Selected only while `rst_cnt >= 2`. -/
def execRstwait (s : State) : Host.Outcome State Fault Refusal := .next { s with rstCnt := s.rstCnt - 1 }

/-- RELEASE (R133): the line is driven high and the critical section is opened in the same tick. -/
def execRelease (s : State) : Host.Outcome State Fault Refusal :=
  .next { s.enterCritical with rstCnt := 0, pinOut := true, fsm := .handshake }

/-- TOINPUT (R134): the pad becomes an input. -/
def execToinput (s : State) : Host.Outcome State Fault Refusal :=
  .next { s with pinOe := false, ph := .sync, fsm := .preamble }

/-- PEND.P (R135): a preamble symbol ends by a low sample. -/
def execPendP (s : State) : Host.Outcome State Fault Refusal := .next (s.completePreamble s.cnt)

/-- OVR.P (R136): a preamble symbol ends by the ceiling. -/
def execOvrP (s : State) : Host.Outcome State Fault Refusal := .next (s.completePreamble Config.ceiling)

/-- DONE (R137): the critical section is closed and the cycle is over. -/
def execDone (s : State) : Host.Outcome State Fault Refusal := .next { s.leaveCritical with fsm := .idle }

end Sys2Proof.Machine
end

