-- ==== Sys2Proof/Machine/ResetOp.lean ====
section
/-! DEFINITION. The reset family (70_reset_and_hazards.md section 1) and the reserved row (30_encoding.md R100). -/

namespace Sys2Proof.Machine

/-- HRESET (R200): every register to the value of R43; the Reading becomes unspecified (R43; 93 I21): free values of this
tick, log 4. The parameters are no registers and stay (R219). -/
def execHreset (s : State) : Host.Outcome State Fault Refusal :=
  .next
    { s.clearCycle.leaveCritical with
      fsm := .idle
      rstCnt := 0
      valid := false
      pinOe := false
      pinOut := true
      humidity := Config.freeHumidity s.tick
      temperature := Config.freeTemperature s.tick
      checksumValid := Config.freeChecksumValid s.tick }

/-- RSVD3 (R100): "no meaning", refused; no state of its own is given to it. Log 5. -/
def execRsvd3 (_s : State) : Host.Outcome State Fault Refusal := .refused .reservedFsm

end Sys2Proof.Machine
end

