-- ==== Sys2Proof/Syntax.lean ====
section
/-! DEFINITION. The operations: one constructor per row of the operation map (30_encoding.md R96), in its order.
A mnemonic takes no operands: all an operation uses is state, input or parameter (R105). -/

namespace Sys2Proof

/-- The sixteen operations of R96. -/
inductive Instr where
  /-- HRESET, row 1 (70 R200). -/
  | hreset
  /-- NOP, row 2 (41 R130). -/
  | nop
  /-- START, row 3 (41 R131). -/
  | start
  /-- RSTWAIT, row 4 (41 R132). -/
  | rstwait
  /-- RELEASE, row 5 (41 R133). -/
  | release
  /-- TOINPUT, row 6 (41 R134). -/
  | toinput
  /-- RSVD3, row 7: the reserved code `fsm = 3` (30 R100). -/
  | rsvd3
  /-- SYNCWAIT, row 8 (40 R110). -/
  | syncwait
  /-- SYNCHIT, row 9 (40 R111). -/
  | synchit
  /-- COUNT, row 10 (40 R112). -/
  | count
  /-- PEND.P, row 11 (41 R135). -/
  | pendP
  /-- OVR.P, row 12 (41 R136). -/
  | ovrP
  /-- PEND.D, row 13 (42 R151). -/
  | pendD
  /-- OVR.D, row 14 (42 R152). -/
  | ovrD
  /-- VALIDATE, row 15 (42 R153). -/
  | validate
  /-- DONE, row 16 (41 R137). -/
  | done
deriving DecidableEq, Repr

end Sys2Proof
end

