-- ==== Sys2Proof/Machine/Dispatch.lean ====
section
/-! DEFINITION. One arm per operation of the operation map (30_encoding.md R96). -/

namespace Sys2Proof.Machine

def exec (i : Instr) (s : State) : Host.Outcome State Fault Refusal :=
  match i with
  | .hreset => Sys2Proof.Machine.execHreset s
  | .nop => Sys2Proof.Machine.execNop s
  | .start => Sys2Proof.Machine.execStart s
  | .rstwait => Sys2Proof.Machine.execRstwait s
  | .release => Sys2Proof.Machine.execRelease s
  | .toinput => Sys2Proof.Machine.execToinput s
  | .rsvd3 => Sys2Proof.Machine.execRsvd3 s
  | .syncwait => Sys2Proof.Machine.execSyncwait s
  | .synchit => Sys2Proof.Machine.execSynchit s
  | .count => Sys2Proof.Machine.execCount s
  | .pendP => Sys2Proof.Machine.execPendP s
  | .ovrP => Sys2Proof.Machine.execOvrP s
  | .pendD => Sys2Proof.Machine.execPendD s
  | .ovrD => Sys2Proof.Machine.execOvrD s
  | .validate => Sys2Proof.Machine.execValidate s
  | .done => Sys2Proof.Machine.execDone s

end Sys2Proof.Machine
end

