-- ==== Sys2Proof/WellFormed.lean ====
section
/-! DEFINITION. Which operations have a meaning. There are no operands to check (R105) and no illegal command or symbol
(R101, R102); the one check is the reserved code: its case is outside the domain of the model (30 R100; 93 I23). -/

namespace Sys2Proof

/-- Check: the operation is not the reserved one (R100: "no meaning"). -/
def Instr.notReserved : Instr → Bool
  | .rsvd3 => false
  | .hreset | .nop | .start | .rstwait | .release | .toinput | .syncwait | .synchit | .count
  | .pendP | .ovrP | .pendD | .ovrD | .validate | .done => true

/-- An operation is well formed when every check passes. -/
def Instr.wellFormed (i : Instr) : Bool := i.notReserved

end Sys2Proof
end

