-- ==== Sys2Proof/Decode.lean ====
section
/-! DEFINITION. The operation map of 30_encoding.md R96 as mask and match words, the decoder of a selector word (R95)
and, after it, the encoder. -/

namespace Sys2Proof

/-- One row of the operation map: a selector word `sel` is of the row when `sel AND mask = match` (R95). -/
structure Row where
  pattern : Byte
  mask : Byte
deriving DecidableEq, Repr

/-- The row's test of R95. -/
def Row.admits (r : Row) (w : Byte) : Bool := w &&& r.mask == r.pattern

/-- The columns match and mask of R96. -/
def Instr.row : Instr → Row
  | .hreset   => ⟨0x80, 0x80⟩
  | .nop      => ⟨0x00, 0xF4⟩
  | .start    => ⟨0x04, 0xF4⟩
  | .rstwait  => ⟨0x10, 0xF1⟩
  | .release  => ⟨0x11, 0xF1⟩
  | .toinput  => ⟨0x20, 0xF0⟩
  | .rsvd3    => ⟨0x30, 0xF0⟩
  | .syncwait => ⟨0x40, 0xEA⟩
  | .synchit  => ⟨0x42, 0xEA⟩
  | .count    => ⟨0x4A, 0xEB⟩
  | .pendP    => ⟨0x48, 0xFA⟩
  | .ovrP     => ⟨0x4B, 0xFB⟩
  | .pendD    => ⟨0x58, 0xFA⟩
  | .ovrD     => ⟨0x5B, 0xFB⟩
  | .validate => ⟨0x60, 0xF0⟩
  | .done     => ⟨0x70, 0xF0⟩

/-- The rows of R96 in its order. -/
def Instr.all : List Instr :=
  [.hreset, .nop, .start, .rstwait, .release, .toinput, .rsvd3, .syncwait] ++
  [.synchit, .count, .pendP, .ovrP, .pendD, .ovrD, .validate, .done]

/-- Why a decoder answers no operation. -/
inductive Reject where
  /-- There is no selector word to read. -/
  | noWord
  /-- No row admits the word. The rows are exhaustive (R95), so no word of 8 bits meets this. -/
  | noRow
deriving DecidableEq, Repr

/-- The operation of a selector word: the one whose row admits it (R95). -/
def decode (w : Byte) : Except Reject Instr :=
  match Instr.all.find? fun i => i.row.admits w with
  | some i => .ok i
  | none => .error .noRow

/-- The decoder on any bytes: one selector word is one byte; the rest is given back. -/
def decodeBytes : List Byte → Except Reject (Instr × List Byte)
  | [] => .error .noWord
  | w :: rest =>
    match decode w with
    | .ok i => .ok (i, rest)
    | .error r => .error r

/-- The selector word of an operation with the bits outside its mask taken from `fill` (R95: such a bit is ignored). -/
def encodeWith (i : Instr) (fill : Byte) : Byte := i.row.pattern ||| (fill &&& ~~~i.row.mask)

/-- The operation's selector word with every bit outside its mask 0: the match word of R96. -/
def encode (i : Instr) : Byte := encodeWith i 0

/-- What the decoder reads from a word numbered as the opcode table numbers it: `sel` is one word of 8 bits, and a set
bit above them is no selector word. Log 14. -/
def decodeTableWord (nbits w : Nat) : Option Instr :=
  let v := w % 2 ^ nbits
  if v < 256 then
    match decode (BitVec.ofNat 8 v) with
    | .ok i => some i
    | .error _ => none
  else none

end Sys2Proof
end

