-- ==== Sys2Proof/Machine/Selector.lean ====
section
/-! DEFINITION. The selector word of a tick (30_encoding.md R94), the operation it selects (R95), the end of a tick, and
the placing of a selector word for the next tick. -/

namespace Sys2Proof.Machine

/-- The code of an `fsm` state (R27). -/
def Fsm.code : Fsm → BitVec 3
  | .idle => 0
  | .reset => 1
  | .handshake => 2
  | .reserved3 => 3
  | .preamble => 4
  | .data => 5
  | .validate => 6
  | .done => 7

/-- The `fsm` state of a code (R27). -/
def Fsm.ofCode (c : BitVec 3) : Fsm :=
  match c.toNat with
  | 0 => .idle
  | 1 => .reset
  | 2 => .handshake
  | 3 => .reserved3
  | 4 => .preamble
  | 5 => .data
  | 6 => .validate
  | _ => .done

/-- The code of a phase: bit `h` (R28, R94). -/
def Phase.bit : Phase → Bool
  | .sync => false
  | .measure => true

/-- The selector word `sel = {rst, fsm, ph, start, pin, tc}` (R94). -/
def State.selector (s : State) : Byte :=
  BitVec.ofBool s.inputs.rst ++ s.fsm.code ++ BitVec.ofBool s.ph.bit ++ BitVec.ofBool s.inputs.start ++
    BitVec.ofBool s.pinRead ++ BitVec.ofBool s.terminalCount

/-- The operation this tick selects (R95). -/
def State.fetch (s : State) : Except Reject Instr := decode s.selector

/-- The tick's inputs are used up and the next tick is numbered; no register changes (R14). Log 1, log 12. -/
def State.endTick (s : State) : State := { s with pending := s.pending.tail, tick := s.tick + 1 }

/-- A reset-pulse count for which `tc` is `t`, the present one if it will do (R94). -/
def placeRstCnt (now : Nat) (t : Bool) : Nat :=
  if decide (now ≤ 1) = t then now else if t then 1 else 2

/-- A pulse count for which `tc` is `t`, the present one if it will do (R94). -/
def placeCnt (now : Byte) (t : Bool) : Byte :=
  if decide (254 ≤ now.toNat) = t then now else if t then 254 else 0

/-- The state whose next tick has the selector word `w`: the inputs of that tick, `fsm` and `ph` are set from it, and the
counter that `tc` looks at, if one does, to a value that gives bit 0. Log 10. -/
def State.placeWord (s : State) (w : Byte) : State :=
  let fsm := Fsm.ofCode (w.extractLsb' 4 3)
  let ph := if w.getLsbD 3 then Phase.measure else Phase.sync
  let t := w.getLsbD 0
  { s with
    pending := { rst := w.getLsbD 7, start := w.getLsbD 2, pin := w.getLsbD 1 } :: s.pending.tail
    fsm := fsm
    ph := ph
    rstCnt := if fsm = .reset then placeRstCnt s.rstCnt t else s.rstCnt
    cnt := if fsm.isSampler = true ∧ ph = .measure then placeCnt s.cnt t else s.cnt }

end Sys2Proof.Machine
end

