-- ==== Sys2Proof/Machine/Step.lean ====
section
/-! DEFINITION. One tick (00_scope.md R14, 30_encoding.md R95): exactly one operation executes, the one the selector word
of the tick selects, and its writes appear together at the tick's end. -/

namespace Sys2Proof.Machine

/-- One tick. The operation is selected from the state and inputs at the tick's beginning; the tick's inputs are then used
up (`State.endTick`), and the operation's meaning gives the registers at the tick's end. -/
def step (s : State) : Host.Outcome State Fault Refusal :=
  match s.fetch with
  | .ok i => exec i s.endTick
  | .error _ => .refused .noRow

/-- The state whose next step has the selector word `w` (of `nbits` bits). Log 10. -/
def State.withFetchWord (s : State) (nbits w : Nat) : State := s.placeWord (BitVec.ofNat 8 (w % 2 ^ nbits))

end Sys2Proof.Machine
end

