-- ==== Sys2Proof/Machine/Ports.lean ====
section
/-! DEFINITION. The output ports (10_state.md R35): functions of the registers alone (Moore outputs, 00_scope.md R14). The
Frame Buffer is no output (R38). -/

namespace Sys2Proof.Machine

/-- The values of the output ports in a tick (R35). The last two exist only when `DIAG`. -/
structure Outputs where
  pinOe : Bool
  pinOut : Bool
  crit : Bool
  busy : Bool
  done : Bool
  valid : Bool
  humidity : Word16
  temperature : Word16
  checksumValid : Bool
  trace : Option (List Byte)
  scnt : Option SymIdx
deriving DecidableEq, Repr

/-- The 43 trace ports in order (R35, R63). -/
def Diag.ports (d : Diag) : List Byte := (List.range Config.traceLen).map d.trace.read

/-- The output ports (R35). -/
def State.outputs (s : State) : Outputs where
  pinOe := s.pinOe
  pinOut := s.pinOut
  crit := s.crit
  busy := s.busy
  done := s.done
  valid := s.valid
  humidity := s.humidity
  temperature := s.temperature
  checksumValid := s.checksumValid
  trace := s.diag.map Diag.ports
  scnt := s.diag.map Diag.scnt

/-- The level the block puts on the line, `none` when it does not drive it (R37, R68). -/
def State.lineDrive (s : State) : Option Bool := if s.pinOe then some s.pinOut else none

/-- The sequencer position `(fsm, ph, symidx)`, the analogue of a program counter (R29). -/
def State.position (s : State) : Fsm × Phase × SymIdx := (s.fsm, s.ph, s.symidx)

end Sys2Proof.Machine
end

