-- ==== Sys2Proof/Safety.lean ====
section
/-! DEFINITION. The terms claims are stated in: the invariant of the reachable states (10_state.md R45), what a step records
and shifts in, the sequencer as one relation (41_frame_decoder.md R139), the write sets of R26, pin scripts (30_encoding.md
R80, R103), and the obligations of host and integrator as named premises (70_reset_and_hazards.md R210). -/

namespace Sys2Proof.Machine

/-! ### The invariant of the reachable states -/

/-- Legal parameters (R10; 93 I24). `THRESHOLD` in 0..254 is in its type. -/
abbrev Params.Legal (p : Params) : Prop := 1 ≤ p.resetTicks

/-- `W_RST`: the smallest width with `RESET_TICKS < 2^W_RST` (R10, D33; 93 I31). -/
def Params.wRst (p : Params) : Nat := if p.resetTicks = 0 then 0 else Nat.log2 p.resetTicks + 1

/-- `symidx` as R45 (c) binds it to `fsm`; in IDLE it is 0 after HRESET and 42 after a cycle (R22, R43). -/
def symidxFits (fsm : Fsm) (symidx : SymIdx) : Bool :=
  match fsm with
  | .idle => decide (symidx = 0) || decide (symidx = 42)
  | .reset | .handshake => decide (symidx = 0)
  | .preamble => decide (symidx = 0) || decide (symidx = 1)
  | .data => decide (2 ≤ symidx.toNat) && decide (symidx.toNat ≤ 41)
  | .validate | .done => decide (symidx = 42)
  | .reserved3 => true

/-- `fsm` is between RELEASE and the end of DONE (R45 (e), R175). -/
def Fsm.inCritical : Fsm → Bool
  | .handshake | .preamble | .data | .validate | .done => true
  | .idle | .reset | .reserved3 => false

/-- `fsm` is RESET, HANDSHAKE or PREAMBLE: the Frame Buffer is as START cleared it (R38, R67). -/
def Fsm.bufferFresh : Fsm → Bool
  | .reset | .handshake | .preamble => true
  | .idle | .data | .validate | .done | .reserved3 => false

/-- What holds in every reachable state (R45 (a) to (i)), with the canonical form of the two byte spaces and legal
parameters beside it. -/
structure BlockInv (s : State) : Prop where
  /-- Legal parameters (R10). -/
  legal : s.params.Legal
  /-- R45 (a). -/
  fsm_not_reserved : s.fsm ≠ .reserved3
  /-- R45 (b). -/
  measure_in_sampler : s.ph = .measure → s.fsm.isSampler = true
  /-- R45 (c). -/
  symidx_fits : symidxFits s.fsm s.symidx = true
  /-- R45 (d). -/
  cnt_below_ceiling : s.ph = .measure → s.cnt.toNat ≤ 254
  /-- R45 (e). -/
  crit_iff : s.crit = s.fsm.inCritical
  /-- R45 (f). -/
  pinOe_iff : s.pinOe = (decide (s.fsm = .reset) || decide (s.fsm = .handshake))
  /-- R45 (f). -/
  pinOut_iff : s.pinOut = decide (s.fsm ≠ .reset)
  /-- R45 (g). -/
  rstCnt_in_reset : s.fsm = .reset → 1 ≤ s.rstCnt ∧ s.rstCnt ≤ s.params.resetTicks
  /-- R45 (g). -/
  rstCnt_elsewhere : s.fsm ≠ .reset → s.rstCnt = 0
  /-- The buffer is all zero from START to the first data symbol (R38, R131). -/
  buf_fresh : s.fsm.bufferFresh = true → ∀ a < Config.bufLen, s.buf.read a = 0
  /-- R45 (h), with `symidx = 2 + 8 i + k`. -/
  buf_filling : s.fsm = .data →
    (s.buf.read ((s.symidx.toNat - 2) / 8)).toNat < 2 ^ ((s.symidx.toNat - 2) % 8) ∧
    ∀ a < Config.bufLen, (s.symidx.toNat - 2) / 8 < a → s.buf.read a = 0
  /-- R45 (i). -/
  scnt_is_symidx : ∀ d ∈ s.diag, d.scnt = s.symidx
  /-- R45 (i). -/
  trace_unwritten : ∀ d ∈ s.diag, ∀ a < Config.traceLen, d.scnt.toNat ≤ a → d.trace.read a = 0
  /-- The Frame Buffer's canonical form. -/
  buf_wf : s.buf.wf Config.bufLen
  /-- The trace's canonical form. -/
  trace_wf : ∀ d ∈ s.diag, d.trace.wf Config.traceLen

/-- Where the symbol of data symbol `j` stands in the Frame Buffer once `symidx - 2` symbols are in: bit `7 - (j mod 8)`
of a full byte (R60), and as many places lower as symbols are still to come in the byte being filled (R150). -/
def State.collectedBit (s : State) (j : Nat) : Bool :=
  let n := s.symidx.toNat - 2
  (s.buf.read (j / 8)).getLsbD (if j / 8 < n / 8 then 7 - j % 8 else n % 8 - 1 - j % 8)

/-- With `DIAG`, every data symbol taken so far stands in the Frame Buffer as the classification of its recorded count
(R60, R63, R81). -/
def AssemblyInv (s : State) : Prop :=
  ∀ d ∈ s.diag, ∀ j < 40, j + 2 < s.symidx.toNat →
    s.collectedBit j = classify s.params.threshold (d.trace.read (j + 2))

/-- The Reading registers hold what field extraction and validation give for the Frame Buffer (R61, R155). -/
abbrev State.readingIsOfBuffer (s : State) : Prop :=
  s.humidity.toNat = 256 * (s.buf.read 0).toNat + (s.buf.read 1).toNat ∧
  s.temperature.toNat = 256 * (s.buf.read 2).toNat + (s.buf.read 3).toNat ∧
  s.checksumValid = decide
    (((s.buf.read 0).toNat + (s.buf.read 1).toNat + (s.buf.read 2).toNat + (s.buf.read 3).toNat) % 256 =
      (s.buf.read 4).toNat)

/-- When the host may sample the Reading: `done = 1`, or `busy = 0` and `valid = 1` (R70, R216). -/
def State.readingReady (s : State) : Bool := s.done || (!s.busy && s.valid)

/-- A Reading that is ready is that of the cycle just completed (R70). -/
def ReadingInv (s : State) : Prop :=
  s.readingReady = true → s.valid = true ∧ s.symidx = 42 ∧ s.readingIsOfBuffer

/-! ### What an operation records, shifts in and clears -/

/-- The diagnostic part of `Complete(c)` (R113): `trace[scnt] <- c`, `scnt <- scnt + 1`, every other entry unchanged; void
without `DIAG`. The trace clause is for an index of the trace (0..42): for 0..41 it is R113's, at 42 it is the model's
choice of log 7; that `scnt + 1` is modulo 64 is log 13. -/
def DiagRecorded (s t : State) (c : Byte) : Prop :=
  match s.diag, t.diag with
  | none, none => True
  | some d, some e =>
    e.scnt = d.scnt + 1 ∧
    (d.scnt.toNat < 43 →
      e.trace.read d.scnt.toNat = c ∧ ∀ a, a ≠ d.scnt.toNat → e.trace.read a = d.trace.read a)
  | none, some _ | some _, none => False

/-- The trace and `scnt` cleared (R131, R200); void without `DIAG`. -/
def DiagCleared (s t : State) : Prop :=
  match s.diag, t.diag with
  | none, none => True
  | some _, some e => e.scnt = 0 ∧ ∀ a, e.trace.read a = 0
  | none, some _ | some _, none => False

/-- `ShiftIn(sym)` (R150), for `2 <= symidx <= 41`: `buf[i]` with `i = (symidx - 2) div 8` is doubled, takes `sym` in bit 0
and is truncated to 8 bits; every other byte reads as before. -/
def BufShifted (s t : State) (sym : Bool) : Prop :=
  2 ≤ s.symidx.toNat → s.symidx.toNat ≤ 41 →
    bufIndex s.symidx = (s.symidx.toNat - 2) / 8 ∧
    (t.buf.read (bufIndex s.symidx)).toNat = (2 * (s.buf.read (bufIndex s.symidx)).toNat + sym.toNat) % 256 ∧
    ∀ a, a ≠ bufIndex s.symidx → t.buf.read a = s.buf.read a

/-! ### The sequencer as one relation -/

/-- The operation column of the table in R139; HRESET when `rst` is 1 (R200, R181 (a)). -/
def sequencerOp (s : State) : Instr :=
  if s.inputs.rst then .hreset
  else
    match s.fsm, s.ph with
    | .idle, _ => if s.inputs.start then .start else .nop
    | .reset, _ => if 2 ≤ s.rstCnt then .rstwait else .release
    | .handshake, _ => .toinput
    | .reserved3, _ => .rsvd3
    | .preamble, .sync | .data, .sync => if s.inputs.pin then .synchit else .syncwait
    | .preamble, .measure =>
      if !s.inputs.pin then .pendP else if s.cnt.toNat ≤ 253 then .count else .ovrP
    | .data, .measure =>
      if !s.inputs.pin then .pendD else if s.cnt.toNat ≤ 253 then .count else .ovrD
    | .validate, _ => .validate
    | .done, _ => .done

/-- The columns "to (fsm, ph)" and "symidx" of the table in R139, by the operation; a part the table leaves the same is
the present one. -/
def sequencerNext (s : State) : Fsm × Phase × SymIdx :=
  match sequencerOp s with
  | .hreset => (.idle, .sync, 0)
  | .nop => (.idle, s.ph, s.symidx)
  | .start => (.reset, .sync, 0)
  | .rstwait => (.reset, s.ph, s.symidx)
  | .release => (.handshake, s.ph, s.symidx)
  | .toinput => (.preamble, .sync, s.symidx)
  | .rsvd3 => s.position
  | .syncwait => (s.fsm, .sync, s.symidx)
  | .synchit => (s.fsm, .measure, s.symidx)
  | .count => (s.fsm, .measure, s.symidx)
  | .pendP | .ovrP => (if s.symidx.toNat = 0 then .preamble else .data, .sync, s.symidx + 1)
  | .pendD | .ovrD => (if s.symidx.toNat ≤ 40 then .data else .validate, .sync, s.symidx + 1)
  | .validate => (.done, s.ph, s.symidx)
  | .done => (.idle, s.ph, s.symidx)

/-! ### The write sets -/

/-- The columns of the matrix in R26. -/
inductive Column where
  | fsm | ph | cnt | symidx | rstCnt | buf | reading | valid | crit | pinOe | pinOut | trace | scnt
deriving DecidableEq, Repr

/-- The columns marked W, RW or U in an operation's row of R26. -/
def writeSet : Instr → List Column
  | .hreset =>
    [.fsm, .ph, .cnt, .symidx, .rstCnt, .buf, .reading, .valid, .crit, .pinOe, .pinOut, .trace, .scnt]
  | .nop => []
  | .start => [.fsm, .ph, .cnt, .symidx, .rstCnt, .buf, .pinOe, .pinOut, .trace, .scnt]
  | .rstwait => [.rstCnt]
  | .release => [.fsm, .rstCnt, .crit, .pinOut]
  | .toinput => [.fsm, .ph, .pinOe]
  | .rsvd3 => []
  | .syncwait => []
  | .synchit => [.ph, .cnt]
  | .count => [.cnt]
  | .pendP => [.fsm, .ph, .symidx, .trace, .scnt]
  | .ovrP => [.fsm, .ph, .cnt, .symidx, .trace, .scnt]
  | .pendD => [.fsm, .ph, .symidx, .buf, .trace, .scnt]
  | .ovrD => [.fsm, .ph, .cnt, .symidx, .buf, .trace, .scnt]
  | .validate => [.fsm, .reading, .valid]
  | .done => [.fsm, .crit]

/-- A column's registers are the same in two states. -/
def Column.same : Column → State → State → Prop
  | .fsm, s, t => t.fsm = s.fsm
  | .ph, s, t => t.ph = s.ph
  | .cnt, s, t => t.cnt = s.cnt
  | .symidx, s, t => t.symidx = s.symidx
  | .rstCnt, s, t => t.rstCnt = s.rstCnt
  | .buf, s, t => ∀ a, t.buf.read a = s.buf.read a
  | .reading, s, t =>
    t.humidity = s.humidity ∧ t.temperature = s.temperature ∧ t.checksumValid = s.checksumValid
  | .valid, s, t => t.valid = s.valid
  | .crit, s, t => t.crit = s.crit
  | .pinOe, s, t => t.pinOe = s.pinOe
  | .pinOut, s, t => t.pinOut = s.pinOut
  | .trace, s, t => ∀ a, (t.diag.map fun d => d.trace.read a) = s.diag.map fun d => d.trace.read a
  | .scnt, s, t => t.diag.map Diag.scnt = s.diag.map Diag.scnt

/-! ### Comparing two states -/

/-- The state without the diagnostic registers: the same block built with `DIAG` false (R185). -/
def State.withoutDiag (s : State) : State := { s with diag := none }

/-- The outcome of a step with a function applied to its next state. -/
def mapNext (f : State → State) : Host.Outcome State Fault Refusal → Host.Outcome State Fault Refusal
  | .next t => .next (f t)
  | .fault r => .fault r
  | .refused r => .refused r

/-- Two states that differ at most in the Reading registers and `valid` (R157). -/
def SameButReading (s t : State) : Prop :=
  t = { s with humidity := t.humidity, temperature := t.temperature, checksumValid := t.checksumValid, valid := t.valid }

/-! ### Runs and pin scripts -/

/-- `k` ticks from a state (R14), stopping at a refusal: the host's `Host.Core.run` on this machine. -/
def runTicks : Nat → State → Host.Outcome State Fault Refusal
  | 0, s => .next s
  | k + 1, s =>
    match step s with
    | .next t => runTicks k t
    | .fault r => .fault r
    | .refused r => .refused r

/-- The values `crit` takes at its edges in the first `k` ticks, in order: `true` for an edge 0 to 1, `false` for an edge
1 to 0 (R174, R177). -/
def critEdges : Nat → State → List Bool
  | 0, _ => []
  | k + 1, s =>
    match step s with
    | .next t => if t.crit = s.crit then critEdges k t else t.crit :: critEdges k t
    | .fault _ | .refused _ => []

/-- Edges that alternate from a level (R177). -/
def Alternates : Bool → List Bool → Prop
  | _, [] => True
  | b, e :: rest => e = !b ∧ Alternates e rest

/-- In how many of the first `k` ticks START executes (R177). -/
def startTicks : Nat → State → Nat
  | 0, _ => 0
  | k + 1, s =>
    match step s with
    | .next t => (if s.fetch = .ok .start then 1 else 0) + startTicks k t
    | .fault _ | .refused _ => 0

/-- The samples of one symbol with a separator of `l` low samples and final count `c` (R80): the separator, the sync hit
and the counted samples, and, unless the ceiling ends the symbol, the low sample that ends it. -/
def pulsePins (l c : Nat) : List Bool :=
  List.replicate l false ++ List.replicate (c + 1) true ++ if c < 255 then [false] else []

/-- The samples of a row of symbols given as (separator, final count). -/
def trainPins (pulses : List (Nat × Nat)) : List Bool := pulses.flatMap fun p => pulsePins p.1 p.2

/-- The value of byte `i` that the symbols of a whole frame give (two preamble symbols, then forty data symbols): the sum
over `k` of `s_k * 2^(7-k)`, `s_k` the classification of data symbol `8 i + k` (R81, R85). -/
def frameByte (threshold : Fin 255) (pulses : List (Nat × Nat)) (i : Nat) : Nat :=
  ((List.range 8).map fun k =>
    if threshold.val < ((pulses.getD (2 + (8 * i + k)) (0, 0)).2) then 2 ^ (7 - k) else 0).sum

/-- No tick of a stretch of inputs has `rst = 1`. -/
abbrev NoReset (l : List Inputs) : Prop := ∀ x ∈ l, x.rst = false

/-! ### Obligations of host and integrator (70 section 3): premises, enforced by no rule -/

/-- The host presents `start = 1` only when `busy = 0` (R215). -/
abbrev StartsOnlyWhenIdle (s : State) : Prop := s.inputs.start = true → s.busy = false

/-- At least 2 seconds lie between one START and the next (R214). `T_TICK` as a whole number of nanoseconds is the model's
DESIGN CHOICE, log 17. -/
abbrev PollIntervalKept (ticksBetween tTickNs : Nat) : Prop := 2000000000 ≤ ticksBetween * tTickNs

/-- The reset pulse lasts at least 1 ms (R10, R223). `T_TICK` as a whole number of nanoseconds is the model's DESIGN CHOICE,
log 17. -/
abbrev ResetPulseLongEnough (p : Params) (tTickNs : Nat) : Prop := 1000000 ≤ p.resetTicks * tTickNs

/-- `H` is a number of samples in which a pulse of duration `t` can be seen high, on an ideal line (R217). Both durations
are whole numbers of one unit, any unit: DESIGN CHOICE, log 17. -/
abbrev SeenHigh (t tTick H : Nat) : Prop := t / tTick ≤ H ∧ H ≤ (t + tTick - 1) / tTick

/-- R217: `THRESHOLD` lies between the counts that the durations `t0` of a short and `t1` of a long high pulse yield, where
they are seen at all (log 16). The durations are whole numbers of one unit, any unit: DESIGN CHOICE, log 17. -/
abbrev Separates (p : Params) (tTick t0 t1 : Nat) : Prop :=
  1 ≤ tTick ∧ (t0 + tTick - 1) / tTick - 1 ≤ p.threshold.val ∧ p.threshold.val + 1 ≤ t1 / tTick - 1

/-- The calibration premise of R217: `THRESHOLD` separates the two durations, and `t1 / tTick` stays below 256, so that a
long pulse does not split. How short `tTick` must be to resolve the short pulse the spec does not say (91 N5): DESIGN CHOICE,
log 16, no bound `tTick ≤ t0` is set here, and the claims are about pulses seen in at least one sample. -/
abbrev Calibrated (p : Params) (tTick t0 t1 : Nat) : Prop := Separates p tTick t0 t1 ∧ t1 < 256 * tTick

/-- The final count of a high pulse seen in `H` samples: `min(H - 1, 255)` (R80). -/
def finalCount (H : Nat) : Byte := BitVec.ofNat 8 (min (H - 1) 255)

end Sys2Proof.Machine
end

