-- ==== Sys2Proof/Certificates/Slice0/Obligations.lean ====
section
/-! DEFINITION. The statements for the provers. Each docstring names the rule of spec/ it rests on. In each statement about
an operation the first part is its effect, as the exact next state (so also its frame), and the last part is exactly when
the tick selects it. The Reading after HRESET and what lies outside the domains of R113 and R150 are free values: no
statement rests on a value of them. -/

open Sys2Proof Sys2Proof.Machine

/-! ### Reset -/

/-- R43: the registers with a stated reset value hold it in the state after reset. The Reading is unspecified there. -/
def Obligations.ResetHoldsStatedValues : Prop :=
  State.reset.fsm = .idle ∧ State.reset.ph = .sync ∧ State.reset.cnt = 0 ∧ State.reset.symidx = 0 ∧
  State.reset.rstCnt = 0 ∧ (∀ a, State.reset.buf.read a = 0) ∧ State.reset.valid = false ∧
  State.reset.crit = false ∧ State.reset.pinOe = false ∧ State.reset.pinOut = true ∧
  (Config.diag = false ∧ State.reset.diag = none ∨
    Config.diag = true ∧ ∃ d, State.reset.diag = some d ∧ d.scnt = 0 ∧ ∀ a, d.trace.read a = 0)

/-- R45, R201: the state after reset meets the three invariants (for every value of the free parameters). -/
def Obligations.ResetMeetsInvariants : Prop := BlockInv State.reset ∧ AssemblyInv State.reset ∧ ReadingInv State.reset

/-- R200: HRESET, from every state, writes every register; the Reading becomes unspecified. It is selected exactly when
`rst` is 1. -/
def Obligations.HresetWritesEveryRegister : Prop :=
  (∀ s, ∃ t, exec .hreset s = .next t ∧
    t = { s with
      fsm := .idle, ph := .sync, cnt := 0, symidx := 0, rstCnt := 0, buf := t.buf, valid := false, crit := false,
      pinOe := false, pinOut := true, humidity := t.humidity, temperature := t.temperature,
      checksumValid := t.checksumValid, diag := t.diag } ∧
    (∀ a, t.buf.read a = 0) ∧ DiagCleared s t) ∧
  ∀ s : State, s.fetch = .ok .hreset ↔ s.inputs.rst = true

/-- R200, R201, R202: HRESET establishes the invariants from every state with legal parameters, also from the middle of a
cycle. -/
def Obligations.HresetEstablishesInvariants : Prop :=
  ∀ s : State, s.params.Legal → ∃ t, exec .hreset s = .next t ∧ BlockInv t ∧ AssemblyInv t ∧ ReadingInv t

/-! ### Frame Decoder -/

/-- R130: NOP changes nothing; it is selected exactly in IDLE without `start`. -/
def Obligations.NopChangesNothing : Prop :=
  (∀ s, exec .nop s = .next s) ∧
  ∀ s : State, s.fetch = .ok .nop ↔ s.inputs.rst = false ∧ s.fsm = .idle ∧ s.inputs.start = false

/-- R131: START. `crit`, `valid` and the Reading are not touched. -/
def Obligations.StartBeginsResetPulse : Prop :=
  (∀ s, ∃ t, exec .start s = .next t ∧
    t = { s with
      fsm := .reset, ph := .sync, cnt := 0, symidx := 0, rstCnt := s.params.resetTicks, pinOe := true,
      pinOut := false, buf := t.buf, diag := t.diag } ∧
    (∀ a, t.buf.read a = 0) ∧ DiagCleared s t) ∧
  ∀ s : State, s.fetch = .ok .start ↔ s.inputs.rst = false ∧ s.fsm = .idle ∧ s.inputs.start = true

/-- RSTWAIT counts the reset pulse down (41 section 2; that it stays at 0 from 0, where it is not selected, is the model's
choice, log 13); from the first tick of RESET it runs in exactly `RESET_TICKS - 1` ticks, and RELEASE in the next, with the
line driven low and `crit` 0 throughout. -/
def Obligations.RstwaitCountsDown : Prop :=
  (∀ s, exec .rstwait s = .next { s with rstCnt := s.rstCnt - 1 }) ∧
  (∀ s : State, s.fetch = .ok .rstwait ↔ s.inputs.rst = false ∧ s.fsm = .reset ∧ 2 ≤ s.rstCnt) ∧
  ∀ (s : State) (l rest : List Inputs),
    BlockInv s → s.fsm = .reset → s.rstCnt = s.params.resetTicks → s.pending = l ++ rest → NoReset l →
    l.length = s.params.resetTicks →
    (∀ k, k + 1 < s.params.resetTicks → ∃ t, runTicks k s = .next t ∧ t.fetch = .ok .rstwait ∧
      t.lineDrive = some false ∧ t.crit = false) ∧
    ∃ t, runTicks (s.params.resetTicks - 1) s = .next t ∧ t.fetch = .ok .release ∧
      t.lineDrive = some false ∧ t.crit = false

/-- R133: RELEASE drives the line high and opens the critical section in the same tick; with it, RESET has lasted
`RESET_TICKS` ticks, the line driven low in each. -/
def Obligations.ReleaseOpensCriticalSection : Prop :=
  (∀ s, exec .release s = .next { s with rstCnt := 0, pinOut := true, crit := true, fsm := .handshake }) ∧
  (∀ s : State, s.fetch = .ok .release ↔ s.inputs.rst = false ∧ s.fsm = .reset ∧ s.rstCnt ≤ 1) ∧
  ∀ (s : State) (l rest : List Inputs),
    BlockInv s → s.fsm = .reset → s.rstCnt = s.params.resetTicks → s.pending = l ++ rest → NoReset l →
    l.length = s.params.resetTicks →
    (∀ k < s.params.resetTicks, ∃ t, runTicks k s = .next t ∧ t.fsm = .reset ∧ t.lineDrive = some false) ∧
    ∃ t, runTicks s.params.resetTicks s = .next t ∧ t.fsm = .handshake ∧ t.lineDrive = some true

/-- R134: TOINPUT hands the line to the sensor. -/
def Obligations.ToinputReleasesPad : Prop :=
  (∀ s, exec .toinput s = .next { s with pinOe := false, ph := .sync, fsm := .preamble }) ∧
  ∀ s : State, s.fetch = .ok .toinput ↔ s.inputs.rst = false ∧ s.fsm = .handshake

/-- PEND.P discards the symbol; nothing of it reaches the Frame Buffer (41 section 2; what it does with `scnt` 42 or more is
the model's choice, log 7, and that `symidx + 1` and `scnt + 1` are modulo 64, log 13). -/
def Obligations.PendPDiscardsPreambleSymbol : Prop :=
  (∀ s, ∃ t, exec .pendP s = .next t ∧
    t = { s with
      ph := .sync, symidx := s.symidx + 1, fsm := if s.symidx = 1 then .data else s.fsm, diag := t.diag } ∧
    DiagRecorded s t s.cnt) ∧
  ∀ s : State, s.fetch = .ok .pendP ↔
    s.inputs.rst = false ∧ s.fsm = .preamble ∧ s.ph = .measure ∧ s.inputs.pin = false

/-- OVR.P, the same with the count 255 (41 section 2; log 7 and log 13 as for PEND.P). -/
def Obligations.OvrPDiscardsPreambleSymbol : Prop :=
  (∀ s, ∃ t, exec .ovrP s = .next t ∧
    t = { s with
      cnt := 255, ph := .sync, symidx := s.symidx + 1, fsm := if s.symidx = 1 then .data else s.fsm,
      diag := t.diag } ∧
    DiagRecorded s t 255) ∧
  ∀ s : State, s.fetch = .ok .ovrP ↔
    s.inputs.rst = false ∧ s.fsm = .preamble ∧ s.ph = .measure ∧ s.inputs.pin = true ∧ 254 ≤ s.cnt.toNat

/-- R137: DONE closes the critical section and ends the cycle, whatever `checksum_valid` is; `done` is 1 in its tick, and
`done` and `busy` are 0 after it. -/
def Obligations.DoneClosesCriticalSection : Prop :=
  (∀ s, exec .done s = .next { s with crit := false, fsm := .idle }) ∧
  (∀ s t, s.fetch = .ok .done → step s = .next t → s.done = true ∧ t.done = false ∧ t.busy = false) ∧
  ∀ s : State, s.fetch = .ok .done ↔ s.inputs.rst = false ∧ s.fsm = .done

/-- R100: RSVD3 is refused, selected exactly in the reserved code; the code of the state after reset is 0, and no operation
enters the reserved code. -/
def Obligations.ReservedCodeRefusedAndNeverEntered : Prop :=
  State.reset.fsm.code = 0 ∧
  (∀ s, exec .rsvd3 s = .refused .reservedFsm) ∧
  (∀ s : State, s.fetch = .ok .rsvd3 ↔ s.inputs.rst = false ∧ s.fsm = .reserved3) ∧
  ∀ i s t, exec i s = .next t → s.fsm ≠ .reserved3 → t.fsm ≠ .reserved3

/-! ### Bit Sampler -/

/-- R110: SYNCWAIT changes nothing. -/
def Obligations.SyncwaitChangesNothing : Prop :=
  (∀ s, exec .syncwait s = .next s) ∧
  ∀ s : State, s.fetch = .ok .syncwait ↔
    s.inputs.rst = false ∧ (s.fsm = .preamble ∨ s.fsm = .data) ∧ s.ph = .sync ∧ s.inputs.pin = false

/-- R111: SYNCHIT begins the measure phase with the counter at 0. -/
def Obligations.SynchitStartsMeasuring : Prop :=
  (∀ s, exec .synchit s = .next { s with ph := .measure, cnt := 0 }) ∧
  ∀ s : State, s.fetch = .ok .synchit ↔
    s.inputs.rst = false ∧ (s.fsm = .preamble ∨ s.fsm = .data) ∧ s.ph = .sync ∧ s.inputs.pin = true

/-- COUNT adds one, and cannot overflow where it is selected (40 section 2; that it adds one modulo 256 at 254 and 255, where
it is not selected, is the model's choice, log 13). -/
def Obligations.CountAddsOne : Prop :=
  (∀ s, exec .count s = .next { s with cnt := s.cnt + 1 }) ∧
  (∀ s : State, s.cnt.toNat ≤ 253 → (s.cnt + 1).toNat = s.cnt.toNat + 1) ∧
  ∀ s : State, s.fetch = .ok .count ↔
    s.inputs.rst = false ∧ (s.fsm = .preamble ∨ s.fsm = .data) ∧ s.ph = .measure ∧ s.inputs.pin = true ∧
      s.cnt.toNat ≤ 253

/-- R114: the classification is the strict unsigned comparison; an overrun is long for every legal threshold. -/
def Obligations.ClassifyIsStrictComparison : Prop :=
  (∀ (th : Fin 255) (c : Byte), classify th c = if th.val < c.toNat then true else false) ∧
  (∀ th : Fin 255, classify th 255 = true) ∧
  classify 28 27 = false ∧ classify 28 28 = false ∧ classify 28 29 = true ∧ classify 28 0 = false

/-! ### Assembly and checksum -/

/-- PEND.D shifts the classification of `cnt` into the awaited byte (42 section 1; what it does with `scnt` 42 or more is the
model's choice, log 7, and that `symidx + 1` and `scnt + 1` are modulo 64, log 13). -/
def Obligations.PendDShiftsSymbolIn : Prop :=
  (∀ s, ∃ t, exec .pendD s = .next t ∧
    t = { s with
      ph := .sync, symidx := s.symidx + 1, fsm := if s.symidx = 41 then .validate else s.fsm, buf := t.buf,
      diag := t.diag } ∧
    BufShifted s t (decide (s.params.threshold.val < s.cnt.toNat)) ∧ DiagRecorded s t s.cnt) ∧
  ∀ s : State, s.fetch = .ok .pendD ↔
    s.inputs.rst = false ∧ s.fsm = .data ∧ s.ph = .measure ∧ s.inputs.pin = false

/-- OVR.D shifts a 1 in and leaves the counter at 255 (42 section 1; log 7 and log 13 as for PEND.D). -/
def Obligations.OvrDShiftsOneIn : Prop :=
  (∀ s, ∃ t, exec .ovrD s = .next t ∧
    t = { s with
      cnt := 255, ph := .sync, symidx := s.symidx + 1, fsm := if s.symidx = 41 then .validate else s.fsm,
      buf := t.buf, diag := t.diag } ∧
    BufShifted s t true ∧ DiagRecorded s t 255) ∧
  ∀ s : State, s.fetch = .ok .ovrD ↔
    s.inputs.rst = false ∧ s.fsm = .data ∧ s.ph = .measure ∧ s.inputs.pin = true ∧ 254 ≤ s.cnt.toNat

/-- R153: VALIDATE writes the whole Reading from the Frame Buffer, whether or not the checksum holds; the buffer and `crit`
stay. -/
def Obligations.ValidateWritesReading : Prop :=
  (∀ s, ∃ t, exec .validate s = .next t ∧
    t = { s with
      humidity := t.humidity, temperature := t.temperature, checksumValid := t.checksumValid, valid := true,
      fsm := .done } ∧
    t.readingIsOfBuffer) ∧
  ∀ s : State, s.fetch = .ok .validate ↔ s.inputs.rst = false ∧ s.fsm = .validate

/-- R155: the checksum flag is the law `(b0 + b1 + b2 + b3) mod 256 = b4`; R153: adding with 8-bit wrap-around after each
addition gives the same. -/
def Obligations.ChecksumIsSumModulo256 : Prop :=
  ∀ b0 b1 b2 b3 b4 : Byte,
    (checksumHolds b0 b1 b2 b3 b4 = true ↔ (b0.toNat + b1.toNat + b2.toNat + b3.toNat) % 256 = b4.toNat) ∧
    (checksumHolds b0 b1 b2 b3 b4 = true ↔ b0 + b1 + b2 + b3 = b4)

/-- R154: field extraction is pure repacking. -/
def Obligations.FieldsAreRepackedBytes : Prop :=
  ∀ s, ∃ t, exec .validate s = .next t ∧
    t.humidity.extractLsb' 8 8 = s.buf.read 0 ∧ t.humidity.extractLsb' 0 8 = s.buf.read 1 ∧
    t.temperature.extractLsb' 8 8 = s.buf.read 2 ∧ t.temperature.extractLsb' 0 8 = s.buf.read 3

/-! ### The selector and the sequencer -/

/-- R94: the eight bits of the selector word. -/
def Obligations.SelectorWordBits : Prop :=
  ∀ s : State,
    s.selector.getLsbD 7 = s.inputs.rst ∧ s.selector.extractLsb' 4 3 = s.fsm.code ∧
    (s.selector.getLsbD 3 = true ↔ s.ph = .measure) ∧ s.selector.getLsbD 2 = s.inputs.start ∧
    s.selector.getLsbD 1 = s.inputs.pin ∧
    (s.selector.getLsbD 0 = true ↔
      (s.fsm = .reset ∧ s.rstCnt ≤ 1) ∨
      ((s.fsm = .preamble ∨ s.fsm = .data) ∧ s.ph = .measure ∧ 254 ≤ s.cnt.toNat))

/-- R95: of the sixteen rows exactly one admits each selector word, and the decoder answers that row's operation. -/
def Obligations.OneRowPerSelectorWord : Prop :=
  (∀ (w : Byte) (i : Instr), decode w = .ok i ↔ w &&& i.row.mask = i.row.pattern) ∧
  ∀ w : Byte, ∃ i : Instr, decode w = .ok i ∧ ∀ j : Instr, w &&& j.row.mask = j.row.pattern → j = i

/-- R96: selector words written out from the patterns of the operation map, don't-care bits both ways, decode to the
operation of their row (sanity). -/
def Obligations.WrittenOutWordsDecode : Prop :=
  decode 0b10000000#8 = .ok .hreset ∧ decode 0b11111111#8 = .ok .hreset ∧
  decode 0b00001011#8 = .ok .nop ∧ decode 0b00001111#8 = .ok .start ∧
  decode 0b00011110#8 = .ok .rstwait ∧ decode 0b00010111#8 = .ok .release ∧
  decode 0b00101111#8 = .ok .toinput ∧ decode 0b00110000#8 = .ok .rsvd3 ∧
  decode 0b01010101#8 = .ok .syncwait ∧ decode 0b01000010#8 = .ok .synchit ∧
  decode 0b01011110#8 = .ok .count ∧ decode 0b01001101#8 = .ok .pendP ∧
  decode 0b01001111#8 = .ok .ovrP ∧ decode 0b01011001#8 = .ok .pendD ∧
  decode 0b01011011#8 = .ok .ovrD ∧ decode 0b01101111#8 = .ok .validate ∧
  decode 0b01110000#8 = .ok .done

/-- R95, R98: decoding an encoded operation gives it back whatever the ignored bits are, and every word is the encoding of
the operation it decodes to. -/
def Obligations.DecodeInvertsEncode : Prop :=
  (∀ (i : Instr) (fill : Byte), decode (encodeWith i fill) = .ok i) ∧
  (∀ i : Instr, decode (encode i) = .ok i) ∧
  ∀ (w : Byte) (i : Instr), decode w = .ok i → encodeWith i w = w

/-- R14, R95: a step runs exactly the operation the selector word decodes to, on the registers of the tick's beginning; the
step itself only uses up the tick's inputs and numbers the next tick (the model's own fields: log 1, log 12). -/
def Obligations.StepRunsSelectedOperation : Prop :=
  ∀ (s : State) (i : Instr), decode s.selector = .ok i → i.wellFormed = true →
    step s = exec i s.endTick ∧ s.endTick = { s with pending := s.pending.tail, tick := s.tick + 1 }

/-- R139: the selector map and the transition relation of the sequencer are one machine: in every state of the invariant
the tick selects the operation of the relation's table, completes, and moves to the table's position. -/
def Obligations.StepFollowsTransitionRelation : Prop :=
  ∀ s, BlockInv s → s.fetch = .ok (sequencerOp s) ∧ ∃ t, step s = .next t ∧ t.position = sequencerNext s

/-- R94, R96, R139: in EVERY state, reachable or not, the operation map applied to the selector word gives the operation of
the sequencer's relation. -/
def Obligations.SelectorMapEqualsRelation : Prop := ∀ s : State, s.fetch = .ok (sequencerOp s)

/-- R170: the step is total: a next state for every state and input, except the reserved code without `rst`. -/
def Obligations.StepIsTotal : Prop :=
  (∀ s : State, s.fsm ≠ .reserved3 ∨ s.inputs.rst = true → ∃ t, step s = .next t) ∧
  ∀ s : State, s.fsm = .reserved3 → s.inputs.rst = false → step s = .refused .reservedFsm

/-! ### Invariants -/

/-- R45 (a) to (i): every step keeps the invariant (with the canonical form of the Frame Buffer and trace). -/
def Obligations.StepKeepsInvariant : Prop := ∀ s t, BlockInv s → step s = .next t → BlockInv t

/-- R60, R63, R81: every step keeps, for any line whatever, that the Frame Buffer holds the classifications of the recorded
counts of the data symbols, the first symbol of each byte in bit 7. -/
def Obligations.StepKeepsAssembly : Prop :=
  ∀ s t, BlockInv s → AssemblyInv s → step s = .next t → AssemblyInv t

/-- R70, R216: every step keeps that a Reading the host may sample is whole and is that of the Frame Buffer of the cycle
just completed. -/
def Obligations.StepKeepsReadingCurrent : Prop :=
  ∀ s t, BlockInv s → ReadingInv s → step s = .next t → ReadingInv t

/-- R60, R61, R153: in a state of the invariants with `DIAG` in which the host may sample the Reading, each of its 32 bits
is the classification of one recorded count, most significant bit first. -/
def Obligations.ReadyReadingIsRecordedFrame : Prop :=
  ∀ (s : State) (d : Diag), AssemblyInv s → ReadingInv s → s.diag = some d → s.readingReady = true →
    ∀ j < 16,
      s.humidity.getLsbD (15 - j) = classify s.params.threshold (d.trace.read (2 + j)) ∧
      s.temperature.getLsbD (15 - j) = classify s.params.threshold (d.trace.read (18 + j))

/-- R23, R183, R158: the counters fit their widths: `rst_cnt` in `W_RST` bits, `symidx` and `scnt` in 0..42. -/
def Obligations.CountersStayInRange : Prop :=
  ∀ s, BlockInv s → s.rstCnt < 2 ^ s.params.wRst ∧ s.rstCnt ≤ s.params.resetTicks ∧ s.symidx.toNat ≤ 42 ∧
    ∀ d, s.diag = some d → d.scnt.toNat ≤ 42 ∧ d.trace.read 42 = 0

/-! ### Whole-machine rules -/

/-- R26: what the matrix of R26 marks untouched in an operation's row is the same after the operation. -/
def Obligations.OperationsKeepTheirWriteSets : Prop :=
  ∀ (i : Instr) (s t : State), exec i s = .next t → ∀ c : Column, c ∉ writeSet i → c.same s t

/-- R36, R219, R14: no operation changes a parameter, the presence of the diagnostics, or the model's own fields. -/
def Obligations.ParametersAreStatic : Prop :=
  ∀ (i : Instr) (s t : State), exec i s = .next t →
    t.params = s.params ∧ t.diag.isSome = s.diag.isSome ∧ t.pending = s.pending ∧ t.tick = s.tick

/-- R182: only START, RELEASE, TOINPUT and HRESET change the pad registers; only RELEASE, DONE and HRESET change `crit`; only
VALIDATE and HRESET change the Reading and `valid`. -/
def Obligations.OwnershipOfOutputs : Prop :=
  ∀ (s t : State), step s = .next t →
    ((t.pinOe ≠ s.pinOe ∨ t.pinOut ≠ s.pinOut) →
      s.fetch = .ok .start ∨ s.fetch = .ok .release ∨ s.fetch = .ok .toinput ∨ s.fetch = .ok .hreset) ∧
    (t.crit ≠ s.crit → s.fetch = .ok .release ∨ s.fetch = .ok .done ∨ s.fetch = .ok .hreset) ∧
    ((t.humidity ≠ s.humidity ∨ t.temperature ≠ s.temperature ∨ t.checksumValid ≠ s.checksumValid ∨
        t.valid ≠ s.valid) →
      s.fetch = .ok .validate ∨ s.fetch = .ok .hreset)

/-- R175, R176: `crit` rises only by RELEASE and falls only by DONE or HRESET. -/
def Obligations.CriticalSectionEdges : Prop :=
  ∀ s t, step s = .next t →
    (s.crit = false → t.crit = true → s.fetch = .ok .release) ∧
    (s.crit = true → t.crit = false → s.fetch = .ok .done ∨ s.fetch = .ok .hreset)

/-- R34, R137: `done` is 1 for one tick per cycle: it comes only by VALIDATE, with the new Reading written, and the next
tick leaves it, idle and with `crit` 0. -/
def Obligations.DoneLastsOneTick : Prop :=
  (∀ s t, BlockInv s → step s = .next t → t.done = true → s.fetch = .ok .validate ∧ t.readingIsOfBuffer) ∧
  ∀ s : State, s.done = true → ∃ t, step s = .next t ∧ t.done = false ∧ t.busy = false ∧ t.crit = false

/-- R66, R181 (e): outside the sampler ticks the level of `pin` has no effect. -/
def Obligations.PinIgnoredOutsideSampler : Prop :=
  ∀ (s : State) (x : Inputs) (rest : List Inputs) (p : Bool),
    s.pending = x :: rest → s.fsm ≠ .preamble → s.fsm ≠ .data →
    step { s with pending := { x with pin := p } :: rest } = step s

/-- R138, R101: while the block is busy `start` has no effect and is not remembered. -/
def Obligations.StartIgnoredWhileBusy : Prop :=
  ∀ (s : State) (x : Inputs) (rest : List Inputs) (b : Bool),
    s.pending = x :: rest → s.busy = true →
    step { s with pending := { x with start := b } :: rest } = step s

/-- R181 (a): `rst = 1` beats everything: HRESET runs whatever the state and the other inputs are. -/
def Obligations.ResetBeatsOtherInputs : Prop :=
  ∀ (s : State) (x : Inputs) (rest : List Inputs) (b p : Bool),
    s.pending = x :: rest → x.rst = true →
    step s = exec .hreset s.endTick ∧
    step { s with pending := { rst := true, start := b, pin := p } :: rest } = step s

/-- R185: with `DIAG` false everything else behaves identically. -/
def Obligations.DiagnosticsDoNotInterfere : Prop :=
  ∀ s : State, step s.withoutDiag = mapNext State.withoutDiag (step s)

/-- R157: the Reading and `valid` influence nothing: two states that differ in them alone stay so, and agree in them too
after VALIDATE. -/
def Obligations.ReadingInfluencesNothing : Prop :=
  ∀ s s' t, SameButReading s s' → step s = .next t →
    ∃ t', step s' = .next t' ∧ SameButReading t t' ∧ (s.fetch = .ok .validate → t' = t)

/-- R157: nothing of an earlier cycle is left: STARTs from any two idle states of the invariant of the same block lead to
states that read alike in every register but the Reading and `valid`. -/
def Obligations.StartForgetsEarlierCycles : Prop :=
  ∀ s s', BlockInv s → BlockInv s' → s.fsm = .idle → s'.fsm = .idle → s.params = s'.params →
    s.diag.isSome = s'.diag.isSome → s.pending = s'.pending → s.tick = s'.tick →
    ∃ t t', exec .start s = .next t ∧ exec .start s' = .next t' ∧ SameButReading t t'

/-- R35, R38, R14: the output ports are functions of the registers alone; the Frame Buffer is not among them; `busy` and
`done` are as R34 derives them. -/
def Obligations.OutputsFollowRegisters : Prop :=
  ∀ (s : State) (l : List Inputs) (n : Nat) (p : Params) (b : Memory),
    ({ s with pending := l, tick := n, params := p, buf := b } : State).outputs = s.outputs ∧
    (s.outputs.busy = true ↔ s.fsm ≠ .idle) ∧ (s.outputs.done = true ↔ s.fsm = .done)

/-! ### Runs -/

/-- R110, R118 (a), R211: on a line that stays low the sync phase waits for ever: after any number of such ticks, whatever
`start` does, no register has changed. -/
def Obligations.StuckLowLineHangs : Prop :=
  ∀ (s : State) (l rest : List Inputs),
    (s.fsm = .preamble ∨ s.fsm = .data) → s.ph = .sync → s.pending = l ++ rest → NoReset l →
    (∀ x ∈ l, x.pin = false) →
    runTicks l.length s = .next { s with pending := rest, tick := s.tick + l.length }

/-- R144: a START in IDLE drives the line low for exactly `RESET_TICKS` ticks outside the critical section, then high for
one tick inside it, and then hands it to the sensor; in no other state does the block drive the line. -/
def Obligations.ResetPulseWaveform : Prop :=
  (∀ s, BlockInv s → (s.lineDrive = none ↔ s.fsm ≠ .reset ∧ s.fsm ≠ .handshake)) ∧
  ∀ (s : State) (x : Inputs) (l rest : List Inputs),
    s.params.Legal → s.fsm = .idle → s.crit = false → s.pending = x :: (l ++ rest) → x.rst = false →
    x.start = true → NoReset l → l.length = s.params.resetTicks + 1 →
    (∀ k, 1 ≤ k → k ≤ s.params.resetTicks → ∃ t, runTicks k s = .next t ∧
      t.fsm = .reset ∧ t.lineDrive = some false ∧ t.crit = false) ∧
    (∃ t, runTicks (s.params.resetTicks + 1) s = .next t ∧
      t.fsm = .handshake ∧ t.lineDrive = some true ∧ t.crit = true) ∧
    ∃ t, runTicks (s.params.resetTicks + 2) s = .next t ∧
      t.position = (.preamble, .sync, 0) ∧ t.lineDrive = none ∧ t.crit = true ∧ t.pending = rest

/-- R80, R122: a symbol of separator `l` and final count `c` is measured in exactly its samples: the count is `c`, one
symbol is completed and recorded, and a data symbol enters the Frame Buffer as the classification of `c`. -/
def Obligations.PulseDecodesToSymbol : Prop :=
  ∀ (s : State) (l c : Nat) (ins rest : List Inputs),
    BlockInv s → (s.fsm = .preamble ∨ s.fsm = .data) → s.ph = .sync → c ≤ 255 → NoReset ins →
    ins.map Inputs.pin = pulsePins l c → s.pending = ins ++ rest →
    ∃ t, runTicks ins.length s = .next t ∧
      t = { s with
        fsm := if s.symidx = 1 then .data else if s.symidx = 41 then .validate else s.fsm,
        cnt := BitVec.ofNat 8 c, symidx := s.symidx + 1, buf := t.buf, diag := t.diag, pending := rest,
        tick := s.tick + ins.length } ∧
      DiagRecorded s t (BitVec.ofNat 8 c) ∧
      (s.fsm = .preamble → ∀ a, t.buf.read a = s.buf.read a) ∧
      (s.fsm = .data → BufShifted s t (decide (s.params.threshold.val < c)))

/-- R82, R85, R140, R142, R143, R157: `decode_frame()`. From any idle state, a `start` and 42 symbols of any separators and
any final counts lead, in `1 + RESET_TICKS + 1 + S + 1 + 1` ticks, back to IDLE with the five bytes assembled from the
classifications of the forty data symbols, the Reading and the checksum flag of those bytes, and the critical section
closed; with `DIAG` the trace holds the 42 counts. -/
def Obligations.DecodeFrameReadsTheFrame : Prop :=
  ∀ (s : State) (x : Inputs) (handshake train tail rest : List Inputs) (pulses : List (Nat × Nat)),
    s.params.Legal → s.fsm = .idle → x.rst = false → x.start = true →
    handshake.length = s.params.resetTicks + 1 → pulses.length = 42 → (∀ p ∈ pulses, p.2 ≤ 255) →
    train.map Inputs.pin = trainPins pulses → tail.length = 2 → NoReset (handshake ++ train ++ tail) →
    s.pending = x :: (handshake ++ train ++ tail) ++ rest →
    ∃ t, runTicks (1 + s.params.resetTicks + 1 + train.length + 1 + 1) s = .next t ∧
      t.fsm = .idle ∧ t.symidx = 42 ∧ t.valid = true ∧ t.crit = false ∧ t.pinOe = false ∧ t.pinOut = true ∧
      (∀ i < 5, (t.buf.read i).toNat = frameByte s.params.threshold pulses i) ∧ t.readingIsOfBuffer ∧
      t.params = s.params ∧ t.diag.isSome = s.diag.isSome ∧ t.pending = rest ∧
      ∀ d, t.diag = some d → d.scnt = 42 ∧ d.trace.read 42 = 0 ∧
        ∀ k < 42, (d.trace.read k).toNat = (pulses.getD k (0, 0)).2

/-- R116: the measure phase ends within `255 - cnt` ticks, whatever the line does. -/
def Obligations.MeasurePhaseIsBounded : Prop :=
  ∀ (s : State) (l rest : List Inputs),
    BlockInv s → s.ph = .measure → s.pending = l ++ rest → NoReset l → l.length = 255 - s.cnt.toNat →
    ∃ k t, 1 ≤ k ∧ k ≤ 255 - s.cnt.toNat ∧ runTicks k s = .next t ∧ t.ph = .sync ∧
      t.symidx = s.symidx + 1

/-- R116, R172, R211: a cycle in its sampler states reaches VALIDATE once the line has been high in enough ticks, 256 for
each symbol still to come, whatever else the line does. -/
def Obligations.CycleEndsIfLineGoesHighOften : Prop :=
  ∀ (s : State) (l rest : List Inputs),
    BlockInv s → (s.fsm = .preamble ∨ s.fsm = .data) → s.pending = l ++ rest → NoReset l →
    256 * (42 - s.symidx.toNat) ≤ (l.filter Inputs.pin).length →
    ∃ k t, k ≤ l.length ∧ runTicks k s = .next t ∧ t.fsm = .validate

/-- R217: where the threshold separates the durations, every sampling of a short pulse is a 0 and every sampling of a long
pulse a 1; the simpler condition of R217 suffices for it; and where a long pulse is also below 256 ticks, no sampling of
either pulse has more than the 256 high samples of one symbol, so none splits (R119), and the count is the samples less one
(255, an overrun, for 256). That the pulse is seen in a sample at all, `1 ≤ H`, is assumed: log 16. Durations are
whole numbers of one unit: log 17. -/
def Obligations.CalibrationSeparatesPulses : Prop :=
  (∀ (p : Params) (tTick t0 t1 : Nat), Separates p tTick t0 t1 →
    (∀ H, 1 ≤ H → SeenHigh t0 tTick H → classify p.threshold (finalCount H) = false) ∧
    ∀ H, 1 ≤ H → SeenHigh t1 tTick H → classify p.threshold (finalCount H) = true) ∧
  (∀ (p : Params) (tTick t0 t1 : Nat),
    1 ≤ tTick → t0 ≤ p.threshold.val * tTick → (p.threshold.val + 3) * tTick ≤ t1 → Separates p tTick t0 t1) ∧
  ∀ (p : Params) (tTick t0 t1 : Nat), Calibrated p tTick t0 t1 →
    ∀ H, 1 ≤ H → SeenHigh t0 tTick H ∨ SeenHigh t1 tTick H → H ≤ 256 ∧ (finalCount H).toNat = H - 1

/-- R217, R119: under the calibration premise a pulse of either duration, in any separator and any sampling of it, is one
data symbol and not more, with the value of its duration. (After a pulse of 256 high samples, the low sample that follows
is a SYNCWAIT of the next symbol, or falls in the VALIDATE tick.) That the pulse is seen in a sample at all, `1 ≤ H`, is
assumed: log 16. Durations are whole numbers of one unit: log 17. -/
def Obligations.CalibratedPulseIsOneSymbol : Prop :=
  ∀ (s : State) (tTick t0 t1 l H : Nat) (ins rest : List Inputs),
    BlockInv s → s.fsm = .data → s.ph = .sync → Calibrated s.params tTick t0 t1 → 1 ≤ H →
    SeenHigh t0 tTick H ∨ SeenHigh t1 tTick H → NoReset ins →
    ins.map Inputs.pin = List.replicate l false ++ List.replicate H true ++ [false] → s.pending = ins ++ rest →
    ∃ t, runTicks ins.length s = .next t ∧ t.pending = rest ∧ t.symidx = s.symidx + 1 ∧ t.ph = .sync ∧
      t.cnt.toNat = H - 1 ∧
      (SeenHigh t0 tTick H → BufShifted s t false) ∧ (SeenHigh t1 tTick H → BufShifted s t true)

/-! ### The critical section over a run -/

/-- R177, clause by clause: in every run the edges of `crit` alternate, after reset beginning with 0 to 1; in a run without
`rst`, a START and what follows it up to the next START has no edge while the block is in RESET, one edge 0 to 1 after
that, and then one edge 1 to 0 exactly if the cycle is over; the edge 0 to 1 is written by the RELEASE `RESET_TICKS` ticks
after the START; the cycle is over, with both edges, once the line has been high often enough; and while the line stays low
in a sync phase `crit` stays 1. -/
def Obligations.CriticalSectionIsBalanced : Prop :=
  (∀ (k : Nat) (s : State), Alternates s.crit (critEdges k s)) ∧
  State.reset.crit = false ∧
  (∀ (s t : State) (x : Inputs) (l rest : List Inputs),
    BlockInv s → s.fsm = .idle → s.pending = x :: (l ++ rest) → x.start = true → NoReset (x :: l) →
    runTicks (l.length + 1) s = .next t → startTicks (l.length + 1) s = 1 →
    critEdges (l.length + 1) s =
      if t.fsm = .reset then [] else if t.fsm = .idle then [true, false] else [true]) ∧
  (∀ (s : State) (x : Inputs) (l rest : List Inputs),
    BlockInv s → s.fsm = .idle → s.pending = x :: (l ++ rest) → x.start = true → NoReset (x :: l) →
    l.length = s.params.resetTicks →
    (∃ t, runTicks s.params.resetTicks s = .next t ∧ t.fetch = .ok .release) ∧
    critEdges s.params.resetTicks s = [] ∧ critEdges (s.params.resetTicks + 1) s = [true]) ∧
  (∀ (s : State) (x : Inputs) (handshake l tail rest : List Inputs),
    BlockInv s → s.fsm = .idle → s.pending = x :: (handshake ++ l ++ tail) ++ rest → x.start = true →
    NoReset (x :: (handshake ++ l ++ tail)) → handshake.length = s.params.resetTicks + 1 →
    256 * 42 ≤ (l.filter Inputs.pin).length → tail.length = 2 →
    ∃ n t, n ≤ s.params.resetTicks + 4 + l.length ∧ runTicks n s = .next t ∧ t.fsm = .idle ∧
      startTicks n s = 1 ∧ critEdges n s = [true, false]) ∧
  ∀ (s : State) (l rest : List Inputs),
    BlockInv s → (s.fsm = .preamble ∨ s.fsm = .data) → s.ph = .sync → s.pending = l ++ rest → NoReset l →
    (∀ x ∈ l, x.pin = false) →
    ∃ t, runTicks l.length s = .next t ∧ t.crit = true ∧ critEdges l.length s = []

/-- R180: `crit` has no effect on the block's own behaviour: with another value of it in the state, a step has the same
outcome but for `crit`. -/
def Obligations.CritInfluencesNothing : Prop :=
  ∀ (s : State) (b : Bool),
    mapNext State.leaveCritical (step { s with crit := b }) = mapNext State.leaveCritical (step s)
end

