-- ==== Sys2Proof/Laws/Memory.lean ====
section
/-! SUPPORT. The laws of a byte space: a read after a write, everything a write leaves alone, and that every operation
keeps the canonical form. -/

namespace Sys2Proof.Machine

@[simp] theorem Memory.read_nil (a : Nat) : Memory.read [] a = 0 := rfl

theorem Memory.read_cons (b : Nat) (v : Byte) (rest : Memory) (a : Nat) :
    Memory.read ((b, v) :: rest) a = if b = a then v else Memory.read rest a := rfl

theorem Memory.read_erase_same (m : Memory) (a : Nat) : (m.erase a).read a = 0 := by
  induction m with
  | nil => rfl
  | cons c rest ih =>
    obtain ⟨b, v⟩ := c
    simp only [Memory.erase] at ih ⊢
    by_cases h : b = a
    · simpa [h] using ih
    · simpa [h, Memory.read_cons] using ih

theorem Memory.read_erase_other (m : Memory) {a x : Nat} (hx : x ≠ a) : (m.erase a).read x = m.read x := by
  induction m with
  | nil => rfl
  | cons c rest ih =>
    obtain ⟨b, v⟩ := c
    simp only [Memory.erase] at ih ⊢
    by_cases h : b = a
    · subst h
      simpa [Memory.read_cons, Ne.symm hx] using ih
    · simp [h, Memory.read_cons, ih]

theorem Memory.read_place (a : Nat) (v : Byte) (m : Memory) (x : Nat) (hm : ∀ c ∈ m, c.1 ≠ a) :
    (Memory.place a v m).read x = if x = a then v else m.read x := by
  induction m with
  | nil =>
    by_cases h : x = a <;> simp [Memory.place, Memory.read, h, Ne.symm]
  | cons c rest ih =>
    obtain ⟨b, w⟩ := c
    have hb : b ≠ a := hm (b, w) (List.mem_cons_self ..)
    have hr := ih fun c hc => hm c (List.mem_cons_of_mem _ hc)
    by_cases h : a < b
    · by_cases hx : x = a
      · simp [Memory.place, h, Memory.read_cons, hx]
      · simp [Memory.place, h, Memory.read_cons, hx, Ne.symm hx]
    · by_cases hx : x = a
      · subst hx
        simp [Memory.place, h, Memory.read_cons, hb, hr]
      · simp [Memory.place, h, Memory.read_cons, hr, hx]

theorem Memory.mem_erase {m : Memory} {a : Nat} {c : Host.Cell} (h : c ∈ m.erase a) : c ∈ m ∧ c.1 ≠ a := by
  simpa [Memory.erase] using h

/-- A read after a write, in every space: the written value at the written index, the former value elsewhere. -/
theorem Memory.read_write (m : Memory) (a : Nat) (v : Byte) (x : Nat) :
    (m.write a v).read x = if x = a then v else m.read x := by
  unfold Memory.write
  split
  next h =>
    by_cases hx : x = a
    · simp [hx, Memory.read_erase_same, h, Memory.unlisted]
    · simp [hx, Memory.read_erase_other]
  next =>
    rw [Memory.read_place _ _ _ _ fun c hc => (Memory.mem_erase hc).2]
    by_cases hx : x = a <;> simp [hx, Memory.read_erase_other]

@[simp] theorem Memory.read_write_same (m : Memory) (a : Nat) (v : Byte) : (m.write a v).read a = v := by
  simp [Memory.read_write]

theorem Memory.read_write_other (m : Memory) {a x : Nat} (v : Byte) (h : x ≠ a) :
    (m.write a v).read x = m.read x := by
  simp [Memory.read_write, h]

theorem Memory.wf_nil (size : Nat) : Memory.wf size [] := ⟨.nil, by simp⟩

theorem Memory.erase_wf {size : Nat} {m : Memory} (h : m.wf size) (a : Nat) : (m.erase a).wf size :=
  ⟨h.1.filter _, fun c hc => h.2 c (Memory.mem_erase hc).1⟩

theorem Memory.mem_place {a : Nat} {v : Byte} {m : Memory} {c : Host.Cell} (h : c ∈ Memory.place a v m) :
    c = (a, v) ∨ c ∈ m := by
  induction m with
  | nil => simpa [Memory.place] using h
  | cons d rest ih =>
    obtain ⟨b, w⟩ := d
    by_cases hb : a < b
    · simpa [Memory.place, hb] using h
    · simp only [Memory.place, hb, if_false, List.mem_cons] at h
      rcases h with h | h
      · exact .inr (by simp [h])
      · exact (ih h).imp_right (List.mem_cons_of_mem _)

theorem Memory.place_wf {size : Nat} {m : Memory} (h : m.wf size) {a : Nat} {v : Byte} (ha : a < size)
    (hv : v ≠ Memory.unlisted) (hm : ∀ c ∈ m, c.1 ≠ a) : (Memory.place a v m).wf size := by
  refine ⟨?_, fun c hc => ?_⟩
  · induction m with
    | nil => simp [Memory.place]
    | cons d rest ih =>
      obtain ⟨b, w⟩ := d
      have hs := List.pairwise_cons.1 h.1
      have hrest : Memory.wf size rest := ⟨hs.2, fun c hc => h.2 c (List.mem_cons_of_mem _ hc)⟩
      have hb : b ≠ a := hm (b, w) (List.mem_cons_self ..)
      by_cases hab : a < b
      · simp only [Memory.place, hab, if_true]
        refine List.pairwise_cons.2 ⟨fun c hc => ?_, h.1⟩
        rcases List.mem_cons.1 hc with rfl | hc
        · exact hab
        · exact Nat.lt_trans hab (hs.1 c hc)
      · simp only [Memory.place, hab, if_false]
        refine List.pairwise_cons.2 ⟨fun c hc => ?_, ih hrest fun c hc => hm c (List.mem_cons_of_mem _ hc)⟩
        rcases Memory.mem_place hc with rfl | hc
        · exact lt_of_le_of_ne (Nat.le_of_not_lt hab) hb
        · exact hs.1 c hc
  · rcases Memory.mem_place hc with rfl | hc
    · exact ⟨ha, hv⟩
    · exact h.2 c hc

/-- A write inside the space keeps the canonical form. -/
theorem Memory.write_wf {size : Nat} {m : Memory} (h : m.wf size) {a : Nat} (ha : a < size) (v : Byte) :
    (m.write a v).wf size := by
  unfold Memory.write
  split
  · exact Memory.erase_wf h a
  next hv => exact Memory.place_wf (Memory.erase_wf h a) ha hv fun c hc => (Memory.mem_erase hc).2

theorem Memory.wf_mono {n size : Nat} {m : Memory} (h : m.wf n) (hn : n ≤ size) : m.wf size :=
  ⟨h.1, fun c hc => ⟨Nat.lt_of_lt_of_le (h.2 c hc).1 hn, (h.2 c hc).2⟩⟩

/-- A space written from a function is canonical. -/
theorem Memory.ofFn_wf (n : Nat) (f : Nat → Byte) : (Memory.ofFn n f).wf n := by
  induction n with
  | zero => exact Memory.wf_nil 0
  | succ n ih => exact Memory.write_wf (Memory.wf_mono ih (Nat.le_succ n)) (Nat.lt_succ_self n) _

/-- A canonical space lists nothing past its end. -/
theorem Memory.read_past_end {size : Nat} {m : Memory} (h : m.wf size) {a : Nat} (ha : size ≤ a) : m.read a = 0 := by
  induction m with
  | nil => rfl
  | cons c rest ih =>
    obtain ⟨b, v⟩ := c
    have hb : b < size := (h.2 (b, v) (List.mem_cons_self ..)).1
    have hrest : Memory.wf size rest :=
      ⟨(List.pairwise_cons.1 h.1).2, fun c hc => h.2 c (List.mem_cons_of_mem _ hc)⟩
    rw [Memory.read_cons, if_neg (by omega), ih hrest]

theorem Memory.read_head {size : Nat} {b : Nat} {v : Byte} {rest : Memory} (h : Memory.wf size ((b, v) :: rest)) :
    Memory.read ((b, v) :: rest) b = v ∧ v ≠ 0 ∧ Memory.wf size rest ∧ ∀ a ≤ b, Memory.read rest a = 0 := by
  have hs := List.pairwise_cons.1 h.1
  refine ⟨by simp [Memory.read_cons], (h.2 _ (List.mem_cons_self ..)).2,
    ⟨hs.2, fun c hc => h.2 c (List.mem_cons_of_mem _ hc)⟩, fun a ha => ?_⟩
  have hlt : ∀ c ∈ rest, a < c.1 := fun c hc => Nat.lt_of_le_of_lt ha (hs.1 c hc)
  clear h hs
  induction rest with
  | nil => rfl
  | cons d rest ih =>
    have hd : a < d.1 := hlt d (List.mem_cons_self ..)
    obtain ⟨x, w⟩ := d
    rw [Memory.read_cons, if_neg (Nat.ne_of_gt hd), ih fun c hc => hlt c (List.mem_cons_of_mem _ hc)]

/-- Canonical spaces that read alike are equal data. -/
theorem Memory.eq_of_read_eq {size : Nat} {m n : Memory} (hm : m.wf size) (hn : n.wf size)
    (h : ∀ a, m.read a = n.read a) : m = n := by
  induction m generalizing n with
  | nil =>
    cases n with
    | nil => rfl
    | cons d rest =>
      obtain ⟨b, v⟩ := d
      obtain ⟨h1, h2, -, -⟩ := Memory.read_head hn
      exact absurd (by simpa [h1] using (h b).symm) h2
  | cons c rest ih =>
    obtain ⟨b, v⟩ := c
    obtain ⟨hv, hv0, hrest, hz⟩ := Memory.read_head hm
    cases n with
    | nil => exact absurd (by simpa [hv] using h b) hv0
    | cons d rest' =>
      obtain ⟨b', v'⟩ := d
      obtain ⟨hv', hv0', hrest', hz'⟩ := Memory.read_head hn
      have hb : b = b' := by
        rcases Nat.lt_trichotomy b b' with hlt | heq | hgt
        · have := h b
          rw [hv, Memory.read_cons, if_neg (Nat.ne_of_gt hlt), hz' b (Nat.le_of_lt hlt)] at this
          exact absurd this hv0
        · exact heq
        · have := h b'
          rw [hv', Memory.read_cons, if_neg (Nat.ne_of_gt hgt), hz b' (Nat.le_of_lt hgt)] at this
          exact absurd this.symm hv0'
      subst hb
      have hvv : v = v' := by rw [← hv, ← hv', h b]
      subst hvv
      congr 1
      refine ih hrest hrest' fun a => ?_
      by_cases ha : b = a
      · subst ha
        rw [hz b (Nat.le_refl b), hz' b (Nat.le_refl b)]
      · simpa [Memory.read_cons, ha] using h a

end Sys2Proof.Machine
end

