-- ==== Sys2Proof/Laws/State.lean ====
section
/-! SUPPORT. One lemma per field per update function, true by `rfl`. -/

namespace Sys2Proof.Machine

@[simp] theorem State.enterCritical_fsm (s : State) :
    s.enterCritical.fsm = s.fsm := rfl
@[simp] theorem State.enterCritical_ph (s : State) :
    s.enterCritical.ph = s.ph := rfl
@[simp] theorem State.enterCritical_cnt (s : State) :
    s.enterCritical.cnt = s.cnt := rfl
@[simp] theorem State.enterCritical_symidx (s : State) :
    s.enterCritical.symidx = s.symidx := rfl
@[simp] theorem State.enterCritical_rstCnt (s : State) :
    s.enterCritical.rstCnt = s.rstCnt := rfl
@[simp] theorem State.enterCritical_buf (s : State) :
    s.enterCritical.buf = s.buf := rfl
@[simp] theorem State.enterCritical_humidity (s : State) :
    s.enterCritical.humidity = s.humidity := rfl
@[simp] theorem State.enterCritical_temperature (s : State) :
    s.enterCritical.temperature = s.temperature := rfl
@[simp] theorem State.enterCritical_checksumValid (s : State) :
    s.enterCritical.checksumValid = s.checksumValid := rfl
@[simp] theorem State.enterCritical_valid (s : State) :
    s.enterCritical.valid = s.valid := rfl
@[simp] theorem State.enterCritical_crit (s : State) :
    s.enterCritical.crit = true := rfl
@[simp] theorem State.enterCritical_pinOe (s : State) :
    s.enterCritical.pinOe = s.pinOe := rfl
@[simp] theorem State.enterCritical_pinOut (s : State) :
    s.enterCritical.pinOut = s.pinOut := rfl
@[simp] theorem State.enterCritical_diag (s : State) :
    s.enterCritical.diag = s.diag := rfl
@[simp] theorem State.enterCritical_params (s : State) :
    s.enterCritical.params = s.params := rfl
@[simp] theorem State.enterCritical_pending (s : State) :
    s.enterCritical.pending = s.pending := rfl
@[simp] theorem State.enterCritical_tick (s : State) :
    s.enterCritical.tick = s.tick := rfl

@[simp] theorem State.leaveCritical_fsm (s : State) :
    s.leaveCritical.fsm = s.fsm := rfl
@[simp] theorem State.leaveCritical_ph (s : State) :
    s.leaveCritical.ph = s.ph := rfl
@[simp] theorem State.leaveCritical_cnt (s : State) :
    s.leaveCritical.cnt = s.cnt := rfl
@[simp] theorem State.leaveCritical_symidx (s : State) :
    s.leaveCritical.symidx = s.symidx := rfl
@[simp] theorem State.leaveCritical_rstCnt (s : State) :
    s.leaveCritical.rstCnt = s.rstCnt := rfl
@[simp] theorem State.leaveCritical_buf (s : State) :
    s.leaveCritical.buf = s.buf := rfl
@[simp] theorem State.leaveCritical_humidity (s : State) :
    s.leaveCritical.humidity = s.humidity := rfl
@[simp] theorem State.leaveCritical_temperature (s : State) :
    s.leaveCritical.temperature = s.temperature := rfl
@[simp] theorem State.leaveCritical_checksumValid (s : State) :
    s.leaveCritical.checksumValid = s.checksumValid := rfl
@[simp] theorem State.leaveCritical_valid (s : State) :
    s.leaveCritical.valid = s.valid := rfl
@[simp] theorem State.leaveCritical_crit (s : State) :
    s.leaveCritical.crit = false := rfl
@[simp] theorem State.leaveCritical_pinOe (s : State) :
    s.leaveCritical.pinOe = s.pinOe := rfl
@[simp] theorem State.leaveCritical_pinOut (s : State) :
    s.leaveCritical.pinOut = s.pinOut := rfl
@[simp] theorem State.leaveCritical_diag (s : State) :
    s.leaveCritical.diag = s.diag := rfl
@[simp] theorem State.leaveCritical_params (s : State) :
    s.leaveCritical.params = s.params := rfl
@[simp] theorem State.leaveCritical_pending (s : State) :
    s.leaveCritical.pending = s.pending := rfl
@[simp] theorem State.leaveCritical_tick (s : State) :
    s.leaveCritical.tick = s.tick := rfl

@[simp] theorem State.clearCycle_fsm (s : State) :
    s.clearCycle.fsm = s.fsm := rfl
@[simp] theorem State.clearCycle_ph (s : State) :
    s.clearCycle.ph = .sync := rfl
@[simp] theorem State.clearCycle_cnt (s : State) :
    s.clearCycle.cnt = 0 := rfl
@[simp] theorem State.clearCycle_symidx (s : State) :
    s.clearCycle.symidx = 0 := rfl
@[simp] theorem State.clearCycle_rstCnt (s : State) :
    s.clearCycle.rstCnt = s.rstCnt := rfl
@[simp] theorem State.clearCycle_buf (s : State) :
    s.clearCycle.buf = [] := rfl
@[simp] theorem State.clearCycle_humidity (s : State) :
    s.clearCycle.humidity = s.humidity := rfl
@[simp] theorem State.clearCycle_temperature (s : State) :
    s.clearCycle.temperature = s.temperature := rfl
@[simp] theorem State.clearCycle_checksumValid (s : State) :
    s.clearCycle.checksumValid = s.checksumValid := rfl
@[simp] theorem State.clearCycle_valid (s : State) :
    s.clearCycle.valid = s.valid := rfl
@[simp] theorem State.clearCycle_crit (s : State) :
    s.clearCycle.crit = s.crit := rfl
@[simp] theorem State.clearCycle_pinOe (s : State) :
    s.clearCycle.pinOe = s.pinOe := rfl
@[simp] theorem State.clearCycle_pinOut (s : State) :
    s.clearCycle.pinOut = s.pinOut := rfl
@[simp] theorem State.clearCycle_diag (s : State) :
    s.clearCycle.diag = s.diag.map fun _ => Diag.cleared := rfl
@[simp] theorem State.clearCycle_params (s : State) :
    s.clearCycle.params = s.params := rfl
@[simp] theorem State.clearCycle_pending (s : State) :
    s.clearCycle.pending = s.pending := rfl
@[simp] theorem State.clearCycle_tick (s : State) :
    s.clearCycle.tick = s.tick := rfl

@[simp] theorem State.complete_fsm (s : State) (c : Byte) :
    (s.complete c).fsm = s.fsm := rfl
@[simp] theorem State.complete_ph (s : State) (c : Byte) :
    (s.complete c).ph = .sync := rfl
@[simp] theorem State.complete_cnt (s : State) (c : Byte) :
    (s.complete c).cnt = c := rfl
@[simp] theorem State.complete_symidx (s : State) (c : Byte) :
    (s.complete c).symidx = s.symidx := rfl
@[simp] theorem State.complete_rstCnt (s : State) (c : Byte) :
    (s.complete c).rstCnt = s.rstCnt := rfl
@[simp] theorem State.complete_buf (s : State) (c : Byte) :
    (s.complete c).buf = s.buf := rfl
@[simp] theorem State.complete_humidity (s : State) (c : Byte) :
    (s.complete c).humidity = s.humidity := rfl
@[simp] theorem State.complete_temperature (s : State) (c : Byte) :
    (s.complete c).temperature = s.temperature := rfl
@[simp] theorem State.complete_checksumValid (s : State) (c : Byte) :
    (s.complete c).checksumValid = s.checksumValid := rfl
@[simp] theorem State.complete_valid (s : State) (c : Byte) :
    (s.complete c).valid = s.valid := rfl
@[simp] theorem State.complete_crit (s : State) (c : Byte) :
    (s.complete c).crit = s.crit := rfl
@[simp] theorem State.complete_pinOe (s : State) (c : Byte) :
    (s.complete c).pinOe = s.pinOe := rfl
@[simp] theorem State.complete_pinOut (s : State) (c : Byte) :
    (s.complete c).pinOut = s.pinOut := rfl
@[simp] theorem State.complete_diag (s : State) (c : Byte) :
    (s.complete c).diag = s.diag.map fun d => d.record c s.tick := rfl
@[simp] theorem State.complete_params (s : State) (c : Byte) :
    (s.complete c).params = s.params := rfl
@[simp] theorem State.complete_pending (s : State) (c : Byte) :
    (s.complete c).pending = s.pending := rfl
@[simp] theorem State.complete_tick (s : State) (c : Byte) :
    (s.complete c).tick = s.tick := rfl

@[simp] theorem State.shiftIn_fsm (s : State) (sym : Bool) :
    (s.shiftIn sym).fsm = s.fsm := rfl
@[simp] theorem State.shiftIn_ph (s : State) (sym : Bool) :
    (s.shiftIn sym).ph = s.ph := rfl
@[simp] theorem State.shiftIn_cnt (s : State) (sym : Bool) :
    (s.shiftIn sym).cnt = s.cnt := rfl
@[simp] theorem State.shiftIn_symidx (s : State) (sym : Bool) :
    (s.shiftIn sym).symidx = s.symidx := rfl
@[simp] theorem State.shiftIn_rstCnt (s : State) (sym : Bool) :
    (s.shiftIn sym).rstCnt = s.rstCnt := rfl
@[simp] theorem State.shiftIn_humidity (s : State) (sym : Bool) :
    (s.shiftIn sym).humidity = s.humidity := rfl
@[simp] theorem State.shiftIn_temperature (s : State) (sym : Bool) :
    (s.shiftIn sym).temperature = s.temperature := rfl
@[simp] theorem State.shiftIn_checksumValid (s : State) (sym : Bool) :
    (s.shiftIn sym).checksumValid = s.checksumValid := rfl
@[simp] theorem State.shiftIn_valid (s : State) (sym : Bool) :
    (s.shiftIn sym).valid = s.valid := rfl
@[simp] theorem State.shiftIn_crit (s : State) (sym : Bool) :
    (s.shiftIn sym).crit = s.crit := rfl
@[simp] theorem State.shiftIn_pinOe (s : State) (sym : Bool) :
    (s.shiftIn sym).pinOe = s.pinOe := rfl
@[simp] theorem State.shiftIn_pinOut (s : State) (sym : Bool) :
    (s.shiftIn sym).pinOut = s.pinOut := rfl
@[simp] theorem State.shiftIn_diag (s : State) (sym : Bool) :
    (s.shiftIn sym).diag = s.diag := rfl
@[simp] theorem State.shiftIn_params (s : State) (sym : Bool) :
    (s.shiftIn sym).params = s.params := rfl
@[simp] theorem State.shiftIn_pending (s : State) (sym : Bool) :
    (s.shiftIn sym).pending = s.pending := rfl
@[simp] theorem State.shiftIn_tick (s : State) (sym : Bool) :
    (s.shiftIn sym).tick = s.tick := rfl

@[simp] theorem State.nextSymbol_fsm (s : State) (last : SymIdx) (after : Fsm) :
    (s.nextSymbol last after).fsm = if s.symidx = last then after else s.fsm := rfl
@[simp] theorem State.nextSymbol_ph (s : State) (last : SymIdx) (after : Fsm) :
    (s.nextSymbol last after).ph = s.ph := rfl
@[simp] theorem State.nextSymbol_cnt (s : State) (last : SymIdx) (after : Fsm) :
    (s.nextSymbol last after).cnt = s.cnt := rfl
@[simp] theorem State.nextSymbol_symidx (s : State) (last : SymIdx) (after : Fsm) :
    (s.nextSymbol last after).symidx = s.symidx + 1 := rfl
@[simp] theorem State.nextSymbol_rstCnt (s : State) (last : SymIdx) (after : Fsm) :
    (s.nextSymbol last after).rstCnt = s.rstCnt := rfl
@[simp] theorem State.nextSymbol_buf (s : State) (last : SymIdx) (after : Fsm) :
    (s.nextSymbol last after).buf = s.buf := rfl
@[simp] theorem State.nextSymbol_humidity (s : State) (last : SymIdx) (after : Fsm) :
    (s.nextSymbol last after).humidity = s.humidity := rfl
@[simp] theorem State.nextSymbol_temperature (s : State) (last : SymIdx) (after : Fsm) :
    (s.nextSymbol last after).temperature = s.temperature := rfl
@[simp] theorem State.nextSymbol_checksumValid (s : State) (last : SymIdx) (after : Fsm) :
    (s.nextSymbol last after).checksumValid = s.checksumValid := rfl
@[simp] theorem State.nextSymbol_valid (s : State) (last : SymIdx) (after : Fsm) :
    (s.nextSymbol last after).valid = s.valid := rfl
@[simp] theorem State.nextSymbol_crit (s : State) (last : SymIdx) (after : Fsm) :
    (s.nextSymbol last after).crit = s.crit := rfl
@[simp] theorem State.nextSymbol_pinOe (s : State) (last : SymIdx) (after : Fsm) :
    (s.nextSymbol last after).pinOe = s.pinOe := rfl
@[simp] theorem State.nextSymbol_pinOut (s : State) (last : SymIdx) (after : Fsm) :
    (s.nextSymbol last after).pinOut = s.pinOut := rfl
@[simp] theorem State.nextSymbol_diag (s : State) (last : SymIdx) (after : Fsm) :
    (s.nextSymbol last after).diag = s.diag := rfl
@[simp] theorem State.nextSymbol_params (s : State) (last : SymIdx) (after : Fsm) :
    (s.nextSymbol last after).params = s.params := rfl
@[simp] theorem State.nextSymbol_pending (s : State) (last : SymIdx) (after : Fsm) :
    (s.nextSymbol last after).pending = s.pending := rfl
@[simp] theorem State.nextSymbol_tick (s : State) (last : SymIdx) (after : Fsm) :
    (s.nextSymbol last after).tick = s.tick := rfl

@[simp] theorem State.endTick_fsm (s : State) :
    s.endTick.fsm = s.fsm := rfl
@[simp] theorem State.endTick_ph (s : State) :
    s.endTick.ph = s.ph := rfl
@[simp] theorem State.endTick_cnt (s : State) :
    s.endTick.cnt = s.cnt := rfl
@[simp] theorem State.endTick_symidx (s : State) :
    s.endTick.symidx = s.symidx := rfl
@[simp] theorem State.endTick_rstCnt (s : State) :
    s.endTick.rstCnt = s.rstCnt := rfl
@[simp] theorem State.endTick_buf (s : State) :
    s.endTick.buf = s.buf := rfl
@[simp] theorem State.endTick_humidity (s : State) :
    s.endTick.humidity = s.humidity := rfl
@[simp] theorem State.endTick_temperature (s : State) :
    s.endTick.temperature = s.temperature := rfl
@[simp] theorem State.endTick_checksumValid (s : State) :
    s.endTick.checksumValid = s.checksumValid := rfl
@[simp] theorem State.endTick_valid (s : State) :
    s.endTick.valid = s.valid := rfl
@[simp] theorem State.endTick_crit (s : State) :
    s.endTick.crit = s.crit := rfl
@[simp] theorem State.endTick_pinOe (s : State) :
    s.endTick.pinOe = s.pinOe := rfl
@[simp] theorem State.endTick_pinOut (s : State) :
    s.endTick.pinOut = s.pinOut := rfl
@[simp] theorem State.endTick_diag (s : State) :
    s.endTick.diag = s.diag := rfl
@[simp] theorem State.endTick_params (s : State) :
    s.endTick.params = s.params := rfl
@[simp] theorem State.endTick_pending (s : State) :
    s.endTick.pending = s.pending.tail := rfl
@[simp] theorem State.endTick_tick (s : State) :
    s.endTick.tick = s.tick + 1 := rfl

end Sys2Proof.Machine
end

