-- ==== Sys2Proof/Laws/Ops.lean ====
section
/-! SUPPORT. What each shared operation can do, said once: `Diag.record`, `ShiftIn`, the flag computations and the
canonical form under each. -/

namespace Sys2Proof.Machine

@[simp] theorem Diag.cleared_trace : Diag.cleared.trace = [] := rfl
@[simp] theorem Diag.cleared_scnt : Diag.cleared.scnt = 0 := rfl

@[simp] theorem Diag.record_scnt (d : Diag) (c : Byte) (k : Nat) : (d.record c k).scnt = d.scnt + 1 := rfl

/-- R113 at an index of the trace: entry `scnt` takes the count, every other entry reads as before. -/
theorem Diag.record_read (d : Diag) (c : Byte) (k : Nat) (h : d.scnt.toNat < Config.traceLen) (a : Nat) :
    (d.record c k).trace.read a = if a = d.scnt.toNat then c else d.trace.read a := by
  simp only [Diag.record, h, if_true, Memory.read_write]

theorem Diag.record_wf {d : Diag} (hd : d.trace.wf Config.traceLen) (c : Byte) (k : Nat) :
    (d.record c k).trace.wf Config.traceLen := by
  unfold Diag.record
  split
  next h => exact Memory.write_wf hd h c
  next => exact Memory.ofFn_wf _ _

/-- The byte index by 6-bit subtraction is the rule's `(symidx - 2) div 8` (R150, R158). -/
theorem bufIndex_eq {n : SymIdx} (h : 2 ≤ n.toNat) : bufIndex n = (n.toNat - 2) / 8 := by
  have hn := n.isLt
  have : (n - 2).toNat = n.toNat - 2 := by
    rw [BitVec.toNat_sub, show (2 : SymIdx).toNat = 2 from rfl]
    omega
  rw [bufIndex, this]

theorem bufIndex_lt {n : SymIdx} (h : 2 ≤ n.toNat) (h' : n.toNat ≤ 41) : bufIndex n < Config.bufLen := by
  rw [bufIndex_eq h]
  show _ < 5
  omega

/-- R150 in its domain: the awaited symbol's byte is shifted, every other byte reads as before. -/
theorem State.shiftIn_read (s : State) (sym : Bool) (h : 2 ≤ s.symidx.toNat) (h' : s.symidx.toNat ≤ 41) (a : Nat) :
    (s.shiftIn sym).buf.read a =
      if a = bufIndex s.symidx then shiftByte (s.buf.read a) sym else s.buf.read a := by
  have hi := bufIndex_lt h h'
  simp only [State.shiftIn, hi, if_true, Memory.read_write]
  split
  next ha => rw [ha]
  next => rfl

theorem State.shiftIn_wf {s : State} (hs : s.buf.wf Config.bufLen) (sym : Bool) :
    (s.shiftIn sym).buf.wf Config.bufLen := by
  simp only [State.shiftIn]
  split
  next h => exact Memory.write_wf hs h _
  next => exact Memory.ofFn_wf _ _

/-- Bit 0 of a shifted byte is the symbol; bit `p + 1` is the former bit `p` (R85, R150). -/
theorem shiftByte_bit (b : Byte) (sym : Bool) (p : Nat) (hp : p < 8) :
    (shiftByte b sym).getLsbD p = if p = 0 then sym else b.getLsbD (p - 1) := by
  interval_cases p <;> simp [shiftByte]

/-- A shifted byte as a number: doubled, plus the symbol, truncated to 8 bits (R85, R150). -/
theorem shiftByte_toNat (b : Byte) (sym : Bool) :
    (shiftByte b sym).toNat = (2 * b.toNat + sym.toNat) % 256 := by
  revert b sym
  decide

theorem classify_iff (th : Fin 255) (c : Byte) : classify th c = true ↔ th.val < c.toNat := by simp [classify]

/-- The overrun count is long for every legal threshold (R114). -/
theorem classify_ceiling (th : Fin 255) : classify th Config.ceiling = true := by
  have := th.isLt
  simp [classify]

theorem bigEndian_toNat (hi lo : Byte) : (bigEndian hi lo).toNat = 256 * hi.toNat + lo.toNat := by
  have := lo.isLt
  simp only [bigEndian, BitVec.toNat_append, Nat.shiftLeft_eq]
  rw [Nat.mul_comm hi.toNat, ← Nat.two_pow_add_eq_or_of_lt this]

end Sys2Proof.Machine
end

