-- ==== Sys2Proof/Laws/PerInstr.lean ====
section
/-! SUPPORT. Facts about each operation as syntax, one lemma per constructor. -/

namespace Sys2Proof.Laws.RowWords

/-- The decoder reads exactly the words of the operation's row as that operation (30_encoding.md R95). -/
def Statement (i : Instr) : Prop := ∀ w : Byte, decode w = .ok i ↔ i.row.admits w = true

theorem hreset : Statement .hreset := by unfold Statement; decide
theorem nop : Statement .nop := by unfold Statement; decide
theorem start : Statement .start := by unfold Statement; decide
theorem rstwait : Statement .rstwait := by unfold Statement; decide
theorem release : Statement .release := by unfold Statement; decide
theorem toinput : Statement .toinput := by unfold Statement; decide
theorem rsvd3 : Statement .rsvd3 := by unfold Statement; decide
theorem syncwait : Statement .syncwait := by unfold Statement; decide
theorem synchit : Statement .synchit := by unfold Statement; decide
theorem count : Statement .count := by unfold Statement; decide
theorem pendP : Statement .pendP := by unfold Statement; decide
theorem ovrP : Statement .ovrP := by unfold Statement; decide
theorem pendD : Statement .pendD := by unfold Statement; decide
theorem ovrD : Statement .ovrD := by unfold Statement; decide
theorem validate : Statement .validate := by unfold Statement; decide
theorem done : Statement .done := by unfold Statement; decide

end Sys2Proof.Laws.RowWords
end

