-- ==== Sys2Proof/Laws/Step.lean ====
section
/-! SUPPORT. A step by its fetched operation, runs by their steps, and the selector word that `placeWord` lays down. -/

namespace Sys2Proof.Machine

theorem step_of_fetch {s : State} {i : Instr} (h : s.fetch = .ok i) : step s = exec i s.endTick := by
  unfold step
  rw [h]

/-- The decoder answers an operation on every selector word (R95). -/
theorem decode_total (w : Byte) : ∃ i, decode w = .ok i := by
  have h : ∀ w : Byte, (match decode w with | .ok _ => true | .error _ => false) = true := by decide
  have hw := h w
  cases hd : decode w with
  | ok i => exact ⟨i, rfl⟩
  | error r => rw [hd] at hw; cases hw

theorem fetch_total (s : State) : ∃ i, s.fetch = .ok i := decode_total _

/-- A step that answers a next state is one operation's meaning on the state after the tick's inputs are used up. -/
theorem step_next {s t : State} (h : step s = .next t) : ∃ i, s.fetch = .ok i ∧ exec i s.endTick = .next t := by
  obtain ⟨i, hi⟩ := fetch_total s
  exact ⟨i, hi, by rw [← h, step_of_fetch hi]⟩

theorem runTicks_succ {s t : State} (h : step s = .next t) (k : Nat) : runTicks (k + 1) s = runTicks k t := by
  simp only [runTicks, h]

theorem runTicks_one {s t : State} (h : step s = .next t) : runTicks 1 s = .next t := runTicks_succ h 0

theorem runTicks_add {s t : State} {k : Nat} (h : runTicks k s = .next t) (m : Nat) :
    runTicks (k + m) s = runTicks m t := by
  induction k generalizing s with
  | zero =>
    cases h
    rw [Nat.zero_add]
  | succ k ih =>
    rw [Nat.succ_add]
    simp only [runTicks] at h ⊢
    cases hs : step s with
    | next u =>
      rw [hs] at h
      exact ih h
    | fault r =>
      rw [hs] at h
      cases h
    | refused r =>
      rw [hs] at h
      cases h

/-- The edges of `crit` by the first tick of a run. -/
theorem critEdges_succ {s t : State} (h : step s = .next t) (k : Nat) :
    critEdges (k + 1) s = (if t.crit = s.crit then [] else [t.crit]) ++ critEdges k t := by
  simp only [critEdges, h]
  split <;> rfl

/-- The STARTs by the first tick of a run. -/
theorem startTicks_succ {s t : State} (h : step s = .next t) (k : Nat) :
    startTicks (k + 1) s = (if s.fetch = .ok .start then 1 else 0) + startTicks k t := by
  simp only [startTicks, h]

/-- The edges of a run are those of its first part and then those of its second. -/
theorem critEdges_add {s t : State} {k : Nat} (h : runTicks k s = .next t) (m : Nat) :
    critEdges (k + m) s = critEdges k s ++ critEdges m t := by
  induction k generalizing s with
  | zero =>
    cases h
    simp [critEdges]
  | succ k ih =>
    cases hs : step s with
    | next u =>
      rw [runTicks_succ hs] at h
      rw [Nat.succ_add, critEdges_succ hs, critEdges_succ hs, ih h, List.append_assoc]
    | fault r => simp [runTicks, hs] at h
    | refused r => simp [runTicks, hs] at h

theorem startTicks_add {s t : State} {k : Nat} (h : runTicks k s = .next t) (m : Nat) :
    startTicks (k + m) s = startTicks k s + startTicks m t := by
  induction k generalizing s with
  | zero =>
    cases h
    simp [startTicks]
  | succ k ih =>
    cases hs : step s with
    | next u =>
      rw [runTicks_succ hs] at h
      rw [Nat.succ_add, startTicks_succ hs, startTicks_succ hs, ih h, Nat.add_assoc]
    | fault r => simp [runTicks, hs] at h
    | refused r => simp [runTicks, hs] at h

/-- The host's run of this machine is `runTicks`. -/
theorem core_run_eq (k : Nat) (s : State) : Host.Core.run core k s = runTicks k s := by
  induction k generalizing s with
  | zero => rfl
  | succ k ih =>
    have hc : core.step s = step s := rfl
    simp only [Host.Core.run, runTicks, hc]
    cases step s with
    | next t => exact ih t
    | fault r => rfl
    | refused r => rfl

/-- The inputs of a tick are the first pending ones. -/
theorem State.inputs_of_pending {s : State} {x : Inputs} {rest : List Inputs} (h : s.pending = x :: rest) :
    s.inputs = x := by
  unfold State.inputs
  rw [h]

theorem State.inputs_placeWord (s : State) (w : Byte) :
    (s.placeWord w).inputs = { rst := w.getLsbD 7, start := w.getLsbD 2, pin := w.getLsbD 1 } := rfl

theorem placeRstCnt_tc (now : Nat) (t : Bool) : decide (placeRstCnt now t ≤ 1) = t := by
  unfold placeRstCnt
  split
  next h => exact h
  next => cases t <;> rfl

theorem placeCnt_tc (now : Byte) (t : Bool) : decide (254 ≤ (placeCnt now t).toNat) = t := by
  unfold placeCnt
  split
  next h => exact h
  next => cases t <;> rfl

/-- Bit 0 of the selector word that `placeWord w` lays down: that of `w` where `tc` looks at a counter, else 0 (R94). -/
def placedTc (w : Byte) : Bool :=
  (decide (Fsm.ofCode (w.extractLsb' 4 3) = .reset) || ((Fsm.ofCode (w.extractLsb' 4 3)).isSampler && w.getLsbD 3)) &&
    w.getLsbD 0

theorem State.terminalCount_placeWord (s : State) (w : Byte) : (s.placeWord w).terminalCount = placedTc w := by
  obtain ⟨t, ht⟩ : ∃ t, w.getLsbD 0 = t := ⟨_, rfl⟩
  have h1 := placeRstCnt_tc s.rstCnt t
  have h2 := placeCnt_tc s.cnt t
  obtain ⟨f, hf⟩ : ∃ f, Fsm.ofCode (w.extractLsb' 4 3) = f := ⟨_, rfl⟩
  obtain ⟨b, hb⟩ : ∃ b, w.getLsbD 3 = b := ⟨_, rfl⟩
  simp only [State.terminalCount, State.placeWord, placedTc, hf, hb, ht]
  cases f <;> cases b <;> simp [Fsm.isSampler, h1, h2]

/-- The selector word of the next tick after `placeWord w`. -/
theorem State.selector_placeWord (s : State) (w : Byte) :
    (s.placeWord w).selector =
      BitVec.ofBool (w.getLsbD 7) ++ (Fsm.ofCode (w.extractLsb' 4 3)).code ++ BitVec.ofBool (w.getLsbD 3) ++
        BitVec.ofBool (w.getLsbD 2) ++ BitVec.ofBool (w.getLsbD 1) ++ BitVec.ofBool (placedTc w) := by
  have hp : (s.placeWord w).ph.bit = w.getLsbD 3 := by
    simp only [State.placeWord]
    cases w.getLsbD 3 <;> rfl
  simp only [State.selector, State.pinRead, State.inputs_placeWord, State.terminalCount_placeWord, hp]
  rfl

/-- The next tick after `placeWord w` selects the operation `w` decodes to, in every state. -/
theorem State.fetch_placeWord (s : State) (w : Byte) : (s.placeWord w).fetch = decode w := by
  rw [State.fetch, State.selector_placeWord]
  revert w
  decide

/-- The next step after `withFetchWord` runs the operation the decoder reads from the word. -/
theorem step_withFetchWord (s : State) (w : Nat) (hw : w < 256) (i : Instr) (h : decodeTableWord 8 w = some i) :
    step (s.withFetchWord 8 w) = exec i (s.withFetchWord 8 w).endTick := by
  apply step_of_fetch
  have hm : w % 2 ^ 8 = w := Nat.mod_eq_of_lt hw
  rw [State.withFetchWord, State.fetch_placeWord]
  simp only [decodeTableWord, hm, hw, if_true] at h ⊢
  cases hd : decode (BitVec.ofNat 8 w) with
  | ok j =>
    rw [hd] at h
    cases h
    rfl
  | error r =>
    rw [hd] at h
    cases h

end Sys2Proof.Machine
end

