-- ==== Sys2Proof/Tests/Slice0.lean ====
section
/-! SUPPORT. Tests of single operations against the vectors of 95_test_vectors.md (their ids in the docstrings), and for
each obligation with hypotheses a concrete state that meets them. Parameters as there: `THRESHOLD` 28, `RESET_TICKS` 3,
`DIAG` true. -/

namespace Sys2Proof.Tests

open Sys2Proof Sys2Proof.Machine

/-! ### Small states -/

/-- The inputs of a tick without `rst` and `start`. -/
def low : Inputs := ⟨false, false, false⟩
def high : Inputs := ⟨false, false, true⟩
/-- `start = 1`. -/
def go : Inputs := ⟨false, true, false⟩

/-- A stretch of ticks with these samples and no command. -/
def ticks (pins : List Bool) : List Inputs := pins.map fun p => ⟨false, false, p⟩

/-- A state at a position of the cycle with nothing in the buffer and the pad and `crit` as the position has them. -/
def at_ (fsm : Fsm) (ph : Phase) (symidx : SymIdx) (cnt : Byte) (rstCnt : Nat) (pending : List Inputs) : State where
  fsm := fsm
  ph := ph
  cnt := cnt
  symidx := symidx
  rstCnt := rstCnt
  buf := []
  humidity := 0x1111
  temperature := 0x2222
  checksumValid := false
  valid := false
  crit := fsm.inCritical
  pinOe := decide (fsm = .reset) || decide (fsm = .handshake)
  pinOut := decide (fsm ≠ .reset)
  diag := some { trace := [], scnt := symidx }
  params := { threshold := 28, resetTicks := 3 }
  pending := pending
  tick := 0

/-- The idle state (with the register contents of reset, but for the Reading). -/
def idle (pending : List Inputs) : State := at_ .idle .sync 0 0 0 pending

/-- A byte space of five bytes. -/
def bytes (b0 b1 b2 b3 b4 : Byte) : Memory :=
  ((((Memory.write [] 0 b0).write 1 b1).write 2 b2).write 3 b3).write 4 b4

/-- What a step leaves, seen through `f`; `none` where it answers no next state. -/
def after {α : Type} (s : State) (f : State → α) : Option α :=
  match step s with
  | .next t => some (f t)
  | .fault _ | .refused _ => none

/-- A trace entry. -/
def traceAt (s : State) (k : Nat) : Option Byte := s.diag.map fun d => d.trace.read k

/-! ### Well-formedness, decoding, reset -/

/-- The one check refuses the reserved operation (30 R100). -/
theorem test_reserved_is_ill_formed : Instr.wellFormed .rsvd3 = false := by decide

theorem test_others_are_well_formed : (Instr.all.filter fun i => i != .rsvd3).all Instr.wellFormed = true := by decide

/-- 95 section 6, left column. -/
theorem test_decode_vectors_low :
    decode 0b00000000 = .ok .nop ∧ decode 0b00000011 = .ok .nop ∧ decode 0b00000100 = .ok .start ∧
    decode 0b00001111 = .ok .start ∧ decode 0b00010000 = .ok .rstwait ∧ decode 0b00010001 = .ok .release ∧
    decode 0b00010111 = .ok .release ∧ decode 0b00100000 = .ok .toinput ∧ decode 0b00101111 = .ok .toinput ∧
    decode 0b00110000 = .ok .rsvd3 ∧ decode 0b01000000 = .ok .syncwait ∧ decode 0b01000010 = .ok .synchit ∧
    decode 0b01000101 = .ok .syncwait ∧ decode 0b01001000 = .ok .pendP ∧ decode 0b01001001 = .ok .pendP ∧
    decode 0b01001010 = .ok .count := by decide

/-- 95 section 6, right column. -/
theorem test_decode_vectors_high :
    decode 0b01001011 = .ok .ovrP ∧ decode 0b01001100 = .ok .pendP ∧ decode 0b01001111 = .ok .ovrP ∧
    decode 0b01010000 = .ok .syncwait ∧ decode 0b01010010 = .ok .synchit ∧ decode 0b01011000 = .ok .pendD ∧
    decode 0b01011010 = .ok .count ∧ decode 0b01011011 = .ok .ovrD ∧ decode 0b01011101 = .ok .pendD ∧
    decode 0b01011110 = .ok .count ∧ decode 0b01100000 = .ok .validate ∧ decode 0b01101111 = .ok .validate ∧
    decode 0b01110000 = .ok .done ∧ decode 0b01110111 = .ok .done ∧ decode 0b10000000 = .ok .hreset ∧
    decode 0b11111111 = .ok .hreset := by decide

/-- 95 section 6: how many of the 256 words each row selects, in the row order. -/
theorem test_row_sizes :
    (Instr.all.map fun i => ((List.range 256).filter fun w => i.row.admits (BitVec.ofNat 8 w)).length) =
      [128, 8, 8, 8, 8, 16, 16, 8, 8, 4, 4, 2, 4, 2, 16, 16] := by decide +kernel

theorem test_no_word_rejected_by_name : decodeBytes [] = .error .noWord := by decide

theorem test_decode_bytes_gives_rest_back : decodeBytes [0x04, 0xFF] = .ok (.start, [0xFF]) := by decide

theorem test_table_word : decodeTableWord 8 0x5B = some .ovrD ∧ decodeTableWord 16 0x15B = none := by decide

theorem test_reset_memory_wf :
    State.reset.buf.wf Config.bufLen ∧ ∀ d ∈ State.reset.diag, d.trace.wf Config.traceLen := by
  refine ⟨Memory.wf_nil _, fun d hd => ?_⟩
  have h : (if Config.diag then some Diag.cleared else none) = some d := hd
  split at h
  · cases h
    exact Memory.wf_nil _
  · cases h

/-- The first step after reset runs a placed word's operation (START here). -/
theorem test_first_step_after_reset : after (State.reset.withFetchWord 8 0x04) State.fsm = some .reset := by decide

/-! ### Single operations -/

/-- F13: `rst` wins over `start` and over the sampler. -/
theorem test_hreset :
    after { at_ .data .measure 17 9 0 [⟨true, true, true⟩] with valid := true, buf := bytes 1 2 0 0 0 }
        (fun t => (t.fsm, t.ph, t.cnt, t.symidx, t.buf, t.valid, t.crit, t.pinOe, t.pinOut, t.diag)) =
      some (.idle, .sync, 0, 0, [], false, false, false, true, some Diag.cleared) := by rfl

/-- F1. -/
theorem test_nop : step (idle [high]) = .next { idle [] with tick := 1 } := by rfl

/-- F2. -/
theorem test_start :
    step (idle [go]) =
      .next { idle [] with fsm := .reset, rstCnt := 3, pinOe := true, pinOut := false, tick := 1 } := by rfl

/-- START clears what the cycle before left, and keeps the Reading and `valid` (R131). -/
theorem test_start_clears :
    after { at_ .idle .sync 42 40 0 [go] with valid := true, buf := bytes 1 2 3 4 5, diag := some ⟨[(0, 7)], 42⟩ }
        (fun t => (t.buf, t.symidx, t.cnt, t.diag, t.valid, t.humidity)) =
      some ([], 0, 0, some Diag.cleared, true, 0x1111) := by rfl

/-- F3, F4. -/
theorem test_rstwait :
    after (at_ .reset .sync 0 0 3 [go]) (fun t => (t.fsm, t.rstCnt)) = some (.reset, 2) ∧
    after (at_ .reset .sync 0 0 2 [high]) (fun t => (t.fsm, t.rstCnt)) = some (.reset, 1) := by decide

/-- F5. -/
theorem test_release :
    after (at_ .reset .sync 0 0 1 [low]) (fun t => (t.fsm, t.rstCnt, t.pinOe, t.pinOut, t.crit)) =
      some (.handshake, 0, true, true, true) := by decide

/-- F7. -/
theorem test_toinput :
    after (at_ .handshake .sync 0 0 0 [high]) (fun t => (t.fsm, t.ph, t.pinOe, t.pinOut, t.crit)) =
      some (.preamble, .sync, false, true, true) := by decide

/-- 30 R100: refused, and beaten by `rst` as every row is. -/
theorem test_rsvd3 :
    step (at_ .reserved3 .sync 0 0 0 [go]) = .refused .reservedFsm ∧
    after (at_ .reserved3 .sync 0 0 0 [⟨true, false, false⟩]) State.fsm = some .idle := ⟨rfl, by decide⟩

/-- V14. -/
theorem test_syncwait :
    step (at_ .preamble .sync 0 7 0 [low]) = .next { at_ .preamble .sync 0 7 0 [] with tick := 1 } := by rfl

/-- F12: `start` is ignored while busy. -/
theorem test_syncwait_ignores_start :
    step (at_ .data .sync 9 7 0 [go]) = .next { at_ .data .sync 9 7 0 [] with tick := 1 } := by rfl

/-- V15: the sync sample is not counted. -/
theorem test_synchit :
    step (at_ .data .sync 9 40 0 [high]) = .next { at_ .data .measure 9 0 0 [] with tick := 1 } := by rfl

/-- V16a. -/
theorem test_count :
    step (at_ .data .measure 9 253 0 [high]) = .next { at_ .data .measure 9 254 0 [] with tick := 1 } := by rfl

/-- F8. -/
theorem test_pendP_first :
    after (at_ .preamble .measure 0 20 0 [low])
        (fun t => (t.fsm, t.ph, t.cnt, t.symidx, t.buf, traceAt t 0, t.diag.map Diag.scnt)) =
      some (.preamble, .sync, 20, 1, [], some 20, some 1) := by rfl

/-- F9: a long preamble symbol does not reach the buffer either. -/
theorem test_pendP_second :
    after (at_ .preamble .measure 1 40 0 [low])
        (fun t => (t.fsm, t.ph, t.symidx, t.buf, traceAt t 1, t.diag.map Diag.scnt)) =
      some (.data, .sync, 2, [], some 40, some 2) := by rfl

/-- F10. -/
theorem test_ovrP :
    after (at_ .preamble .measure 1 254 0 [high])
        (fun t => (t.fsm, t.ph, t.cnt, t.symidx, t.buf, traceAt t 1)) =
      some (.data, .sync, 255, 2, [], some 255) := by rfl

/-- A2: the first bit of byte 1. -/
theorem test_pendD_first_bit :
    after { at_ .data .measure 10 40 0 [low] with buf := bytes 0x12 0 0 0 0 }
        (fun t => (t.fsm, t.ph, t.symidx, t.cnt, t.buf, traceAt t 10)) =
      some (.data, .sync, 11, 40, bytes 0x12 0x01 0 0 0, some 40) := by rfl

/-- A3: the last bit of the frame. -/
theorem test_pendD_last_bit :
    after { at_ .data .measure 41 40 0 [low] with buf := bytes 0x12 0x34 0x03 0x5A 0x51 }
        (fun t => (t.fsm, t.symidx, t.buf)) =
      some (.validate, 42, bytes 0x12 0x34 0x03 0x5A 0xA3) := by decide

/-- V16b. -/
theorem test_ovrD :
    after (at_ .data .measure 2 254 0 [high])
        (fun t => (t.fsm, t.ph, t.cnt, t.symidx, t.buf, traceAt t 2, t.diag.map Diag.scnt)) =
      some (.data, .sync, 255, 3, bytes 1 0 0 0 0, some 255, some 3) := by rfl

/-- V9: a low sample at `cnt = 254` ends by PEND.D, not by the ceiling. -/
theorem test_ceiling_yields_to_low_sample :
    after (at_ .data .measure 2 254 0 [low]) (fun t => (t.cnt, t.buf)) = some (254, bytes 1 0 0 0 0) := by decide

/-- A16: byte order and a wrapping sum that matches. -/
theorem test_validate :
    after { at_ .validate .sync 42 10 0 [low] with buf := bytes 0xF0 0x0F 0xAA 0x55 0xFE }
        (fun t => (t.fsm, t.humidity, t.temperature, t.checksumValid, t.valid, t.crit)) =
      some (.done, 0xF00F, 0xAA55, true, true, true) := by decide

/-- A7: the Reading is written although the checksum fails. -/
theorem test_validate_bad_checksum :
    after { at_ .validate .sync 42 10 0 [low] with buf := bytes 0x12 0x34 0x03 0x5A 0x43 }
        (fun t => (t.humidity, t.temperature, t.checksumValid, t.valid)) =
      some (0x1234, 0x035A, false, true) := by decide

/-- A11 to A15. -/
theorem test_checksum_wraps :
    checksumHolds 0xFF 0xFF 0xFF 0xFF 0xFC = true ∧ checksumHolds 0xFF 0xFF 0xFF 0xFF 0xFF = false ∧
    checksumHolds 0x80 0x80 0 0 0 = true ∧ checksumHolds 0x80 0x80 0 0 1 = false ∧
    checksumHolds 0xFF 0x01 0 0 0 = true := by decide

/-- F11: the `start` of the DONE tick is not taken. -/
theorem test_done :
    step (at_ .done .sync 42 10 0 [go]) =
      .next { at_ .done .sync 42 10 0 [] with fsm := .idle, crit := false, tick := 1 } := by rfl

/-- V12, V13: the lowest and the highest legal threshold. -/
theorem test_threshold_bounds :
    classify 0 0 = false ∧ classify 0 1 = true ∧ classify 254 254 = false ∧ classify 254 255 = true := by decide

/-- 95 section 4, the output ports in ticks 1, 4 and 6 + S. -/
theorem test_outputs :
    (let o := (at_ .reset .sync 0 0 3 []).outputs; (o.pinOe, o.pinOut, o.crit, o.busy, o.done)) =
      (true, false, false, true, false) ∧
    (let o := (at_ .handshake .sync 0 0 0 []).outputs; (o.pinOe, o.pinOut, o.crit, o.busy, o.done)) =
      (true, true, true, true, false) ∧
    (let o := (at_ .done .sync 42 0 0 []).outputs; (o.pinOe, o.pinOut, o.crit, o.busy, o.done)) =
      (false, true, true, true, true) := by decide

/-! ### Witnesses: states of the invariants -/

/-- What makes a state of `at_` one of the invariant. -/
theorem at_inv {fsm : Fsm} {ph : Phase} {symidx : SymIdx} {cnt : Byte} {rstCnt : Nat} {pending : List Inputs}
    (h : fsm ≠ .reserved3 ∧ (ph = .measure → fsm.isSampler = true ∧ cnt.toNat ≤ 254) ∧
      symidxFits fsm symidx = true ∧ (fsm = .reset → 1 ≤ rstCnt ∧ rstCnt ≤ 3) ∧ (fsm ≠ .reset → rstCnt = 0)) :
    BlockInv (at_ fsm ph symidx cnt rstCnt pending) := by
  obtain ⟨h1, h2, h3, h4, h5⟩ := h
  refine ⟨(by decide : 1 ≤ 3), h1, fun h => (h2 h).1, h3, fun h => (h2 h).2, rfl, rfl, rfl, h4, h5, fun _ _ _ => rfl,
    fun _ => ⟨Nat.two_pow_pos _, fun _ _ _ => rfl⟩, ?_, ?_, Memory.wf_nil _, ?_⟩ <;>
  · intro d hd
    cases hd
    first
      | rfl
      | exact fun _ _ _ => rfl
      | exact Memory.wf_nil _

/-- The invariant has states at every position of the cycle, at the bounds of their registers. -/
theorem witness_BlockInv (p : List Inputs) :
    BlockInv (idle p) ∧ BlockInv (at_ .idle .sync 42 255 0 p) ∧ BlockInv (at_ .reset .sync 0 0 3 p) ∧
    BlockInv (at_ .reset .sync 0 0 1 p) ∧ BlockInv (at_ .handshake .sync 0 0 0 p) ∧
    BlockInv (at_ .preamble .sync 1 255 0 p) ∧ BlockInv (at_ .preamble .measure 0 254 0 p) ∧
    BlockInv (at_ .data .sync 2 0 0 p) ∧ BlockInv (at_ .data .measure 41 253 0 p) ∧
    BlockInv (at_ .validate .sync 42 0 0 p) ∧ BlockInv (at_ .done .sync 42 0 0 p) :=
  ⟨at_inv (by decide), at_inv (by decide), at_inv (by decide), at_inv (by decide), at_inv (by decide),
    at_inv (by decide), at_inv (by decide), at_inv (by decide), at_inv (by decide), at_inv (by decide),
    at_inv (by decide)⟩

/-- The state at the end of a stuck-high cycle (95 P3), in the DONE tick. -/
def stuckHigh : State :=
  { at_ .done .sync 42 255 0 [low] with
    buf := bytes 255 255 255 255 255, humidity := 0xFFFF, temperature := 0xFFFF, valid := true,
    diag := some { trace := (List.range 42).map fun k => (k, 255), scnt := 42 } }

/-- StepKeepsAssembly, ReadyReadingIsRecordedFrame, StepKeepsReadingCurrent: their invariants hold together of a state
with all forty data symbols in it. -/
theorem witness_stuckHigh_inv :
    AssemblyInv stuckHigh ∧ ReadingInv stuckHigh ∧ stuckHigh.readingReady = true := by
  refine ⟨?_, fun _ => by decide, by decide⟩
  intro d hd
  cases hd
  decide

theorem witness_stuckHigh_blockInv : BlockInv stuckHigh := by
  refine ⟨by decide, by decide, by decide, by decide, by decide, by decide, by decide, by decide, by decide, by decide,
    by decide, by decide, ?_, ?_, by decide, ?_⟩ <;>
  · intro d hd
    cases hd
    decide

theorem witness_ReadyReadingIsRecordedFrame : ∃ d, stuckHigh.diag = some d := ⟨_, rfl⟩

/-- StepKeepsInvariant, StepKeepsAssembly, StepKeepsReadingCurrent: the step from that state answers a next state. -/
theorem witness_stuckHigh_steps : ∃ t, step stuckHigh = .next t := ⟨_, rfl⟩

/-! ### Witnesses: selection of the operations -/

theorem witness_HresetWritesEveryRegister : (idle [⟨true, true, true⟩]).inputs.rst = true := by decide

theorem witness_HresetEstablishesInvariants :
    (at_ .data .measure 17 9 0 []).params.Legal ∧ ({ threshold := 0, resetTicks := 1 } : Params).Legal := by decide

theorem witness_NopChangesNothing : (idle [high]).inputs.rst = false ∧ (idle [high]).fsm = .idle ∧
    (idle [high]).inputs.start = false := by decide

theorem witness_StartBeginsResetPulse : (idle [go]).inputs.rst = false ∧ (idle [go]).fsm = .idle ∧
    (idle [go]).inputs.start = true := by decide

theorem witness_RstwaitCountsDown : (at_ .reset .sync 0 0 2 [low]).fetch = .ok .rstwait := by decide

theorem witness_ReleaseOpensCriticalSection : (at_ .reset .sync 0 0 1 [low]).fetch = .ok .release ∧
    (at_ .reset .sync 0 0 0 [low]).fetch = .ok .release := by decide

theorem witness_ToinputReleasesPad : (at_ .handshake .sync 0 0 0 [low]).fetch = .ok .toinput := by decide

theorem witness_PendPDiscardsPreambleSymbol : (at_ .preamble .measure 0 254 0 [low]).fetch = .ok .pendP ∧
    (at_ .preamble .measure 1 0 0 [low]).fetch = .ok .pendP := by decide

theorem witness_OvrPDiscardsPreambleSymbol : (at_ .preamble .measure 0 254 0 [high]).fetch = .ok .ovrP ∧
    (at_ .preamble .measure 1 255 0 [high]).fetch = .ok .ovrP := by decide

theorem witness_DoneClosesCriticalSection : (at_ .done .sync 42 0 0 [go]).fetch = .ok .done ∧
    ∃ t, step (at_ .done .sync 42 0 0 [go]) = .next t := ⟨by decide, _, rfl⟩

theorem witness_ReservedCodeRefusedAndNeverEntered : (at_ .reserved3 .sync 0 0 0 [low]).fetch = .ok .rsvd3 ∧
    (∃ t, exec .toinput (at_ .handshake .sync 0 0 0 [low]) = .next t) ∧
    (at_ .handshake .sync 0 0 0 [low]).fsm ≠ .reserved3 := ⟨by decide, ⟨_, rfl⟩, by decide⟩

theorem witness_SyncwaitChangesNothing : (at_ .preamble .sync 0 0 0 [low]).fetch = .ok .syncwait ∧
    (at_ .data .sync 41 255 0 [low]).fetch = .ok .syncwait := by decide

theorem witness_SynchitStartsMeasuring : (at_ .preamble .sync 0 0 0 [high]).fetch = .ok .synchit ∧
    (at_ .data .sync 41 255 0 [high]).fetch = .ok .synchit := by decide

theorem witness_CountAddsOne : (at_ .preamble .measure 0 0 0 [high]).fetch = .ok .count ∧
    (at_ .data .measure 41 253 0 [high]).fetch = .ok .count ∧
    (at_ .data .measure 41 253 0 [high]).cnt.toNat ≤ 253 := by decide

/-- The ends of the domains of R150 and R113, in `BufShifted` and `DiagRecorded`. -/
theorem witness_PendDShiftsSymbolIn : (at_ .data .measure 2 0 0 [low]).fetch = .ok .pendD ∧
    (at_ .data .measure 41 254 0 [low]).fetch = .ok .pendD ∧
    2 ≤ (2 : SymIdx).toNat ∧ (41 : SymIdx).toNat ≤ 41 ∧ (42 : SymIdx).toNat < 43 := by decide

theorem witness_OvrDShiftsOneIn : (at_ .data .measure 2 254 0 [high]).fetch = .ok .ovrD ∧
    (at_ .data .measure 41 255 0 [high]).fetch = .ok .ovrD := by decide

theorem witness_ValidateWritesReading : (at_ .validate .sync 42 0 0 [go]).fetch = .ok .validate := by decide

/-! ### Witnesses: the selector, the step and the whole-machine rules -/

theorem witness_OneRowPerSelectorWord : (0x0F : Byte) &&& Instr.start.row.mask = Instr.start.row.pattern := by decide

theorem witness_DecodeInvertsEncode : decode 0xFF = .ok .hreset ∧ decode 0x0F = .ok .start := by decide

theorem witness_StepRunsSelectedOperation :
    decode (idle [go]).selector = .ok .start ∧ Instr.wellFormed .start = true := by decide

theorem witness_StepIsTotal :
    (at_ .reserved3 .sync 0 0 0 [⟨true, false, false⟩]).inputs.rst = true ∧ (idle [low]).fsm ≠ .reserved3 ∧
    (at_ .reserved3 .sync 0 0 0 [low]).fsm = .reserved3 ∧
    (at_ .reserved3 .sync 0 0 0 [low]).inputs.rst = false := by decide

theorem witness_CountersStayInRange :
    BlockInv (at_ .reset .sync 0 0 3 []) ∧ ∃ d, (at_ .reset .sync 0 0 3 []).diag = some d :=
  ⟨at_inv (by decide), _, rfl⟩

/-- For every operation with a meaning. -/
theorem witness_OperationsKeepTheirWriteSets (i : Instr) (h : i ≠ .rsvd3) : ∃ t, exec i (idle []) = .next t := by
  cases i <;> first | exact ⟨_, rfl⟩ | exact absurd rfl h

theorem witness_write_sets_leave_columns : Column.reading ∉ writeSet .start ∧ Column.buf ∉ writeSet .pendP := by decide

theorem witness_ParametersAreStatic : ∃ t, exec .hreset (idle []) = .next t := ⟨_, rfl⟩

/-- Each of the three clauses: a pad register, `crit` and the Reading change. -/
theorem witness_OwnershipOfOutputs :
    (∃ t, step (idle [go]) = .next t ∧ t.pinOe ≠ (idle [go]).pinOe) ∧
    (∃ t, step (at_ .reset .sync 0 0 1 [low]) = .next t ∧ t.crit ≠ (at_ .reset .sync 0 0 1 [low]).crit) ∧
    ∃ t, step (at_ .validate .sync 42 0 0 [low]) = .next t ∧
      t.humidity ≠ (at_ .validate .sync 42 0 0 [low]).humidity :=
  ⟨⟨_, rfl, by decide⟩, ⟨_, rfl, by decide⟩, ⟨_, rfl, by decide⟩⟩

theorem witness_CriticalSectionEdges :
    (∃ t, step (at_ .reset .sync 0 0 1 [low]) = .next t ∧ t.crit = true) ∧
    (at_ .reset .sync 0 0 1 [low]).crit = false ∧
    (∃ t, step (at_ .done .sync 42 0 0 [low]) = .next t ∧ t.crit = false) ∧
    (at_ .done .sync 42 0 0 [low]).crit = true :=
  ⟨⟨_, rfl, by decide⟩, by decide, ⟨_, rfl, by decide⟩, by decide⟩

theorem witness_DoneLastsOneTick :
    BlockInv (at_ .validate .sync 42 0 0 [low]) ∧
    (∃ t, step (at_ .validate .sync 42 0 0 [low]) = .next t ∧ t.done = true) ∧
    (at_ .done .sync 42 0 0 [⟨true, true, true⟩]).done = true :=
  ⟨at_inv (by decide), ⟨_, rfl, by decide⟩, by decide⟩

theorem witness_PinIgnoredOutsideSampler :
    (at_ .done .sync 42 0 0 [high, low]).pending = high :: [low] ∧
    (at_ .done .sync 42 0 0 [high, low]).fsm ≠ .preamble ∧
    (at_ .done .sync 42 0 0 [high, low]).fsm ≠ .data := by decide

theorem witness_StartIgnoredWhileBusy :
    (at_ .done .sync 42 0 0 [go]).pending = go :: [] ∧ (at_ .done .sync 42 0 0 [go]).busy = true := by decide

theorem witness_ResetBeatsOtherInputs :
    (at_ .reserved3 .sync 0 0 0 [⟨true, true, true⟩]).pending = ⟨true, true, true⟩ :: [] := by decide

theorem witness_ReadingInfluencesNothing :
    SameButReading (at_ .validate .sync 42 0 0 [low])
      { at_ .validate .sync 42 0 0 [low] with humidity := 7, valid := true } ∧
    (∃ t, step (at_ .validate .sync 42 0 0 [low]) = .next t) ∧
    (at_ .validate .sync 42 0 0 [low]).fetch = .ok .validate := ⟨rfl, ⟨_, rfl⟩, by decide⟩

theorem witness_StartForgetsEarlierCycles :
    BlockInv (idle []) ∧ BlockInv (at_ .idle .sync 42 255 0 []) ∧
    (idle []).params = (at_ .idle .sync 42 255 0 []).params ∧
    (idle []).diag.isSome = (at_ .idle .sync 42 255 0 []).diag.isSome ∧
    (idle []).pending = (at_ .idle .sync 42 255 0 []).pending ∧
    (idle []).tick = (at_ .idle .sync 42 255 0 []).tick :=
  ⟨at_inv (by decide), at_inv (by decide), rfl, rfl, rfl, rfl⟩

/-! ### Witnesses: runs -/

theorem ticks_noReset (l : List Bool) : NoReset (ticks l) := by
  intro x hx
  obtain ⟨p, -, rfl⟩ := List.mem_map.1 hx
  rfl

theorem ticks_pin (l : List Bool) : (ticks l).map Inputs.pin = l := by
  rw [ticks, List.map_map]
  exact List.map_id l

theorem ticks_length (l : List Bool) : (ticks l).length = l.length := List.length_map _

theorem ticks_high (n : Nat) : (ticks (List.replicate n true)).filter Inputs.pin = List.replicate n high := by
  simp [ticks, high]

theorem witness_StuckLowLineHangs :
    let s := at_ .data .sync 9 40 0 ([go, low, go] ++ [high])
    (s.fsm = .preamble ∨ s.fsm = .data) ∧ s.ph = .sync ∧ s.pending = [go, low, go] ++ [high] ∧
    NoReset [go, low, go] ∧ ∀ x ∈ [go, low, go], x.pin = false := by decide

/-- RstwaitCountsDown, ReleaseOpensCriticalSection: their last clauses. -/
theorem witness_reset_pulse :
    let s := at_ .reset .sync 0 0 3 ([low, high, go] ++ [high])
    BlockInv s ∧ s.fsm = .reset ∧ s.rstCnt = s.params.resetTicks ∧ s.pending = [low, high, go] ++ [high] ∧
    NoReset [low, high, go] ∧ [low, high, go].length = s.params.resetTicks :=
  ⟨at_inv (by decide), rfl, rfl, rfl, by decide, rfl⟩

theorem witness_ResetPulseWaveform :
    let s := idle (go :: ([low, high, go, low] ++ [high]))
    s.params.Legal ∧ s.fsm = .idle ∧ s.crit = false ∧ s.pending = go :: ([low, high, go, low] ++ [high]) ∧
    go.rst = false ∧ go.start = true ∧ NoReset [low, high, go, low] ∧
    [low, high, go, low].length = s.params.resetTicks + 1 := by decide

/-- The longest count, in the last data symbol; the shortest, in the first preamble symbol. -/
theorem witness_PulseDecodesToSymbol :
    (BlockInv (at_ .data .sync 41 0 0 (ticks (pulsePins 0 255) ++ [low])) ∧
      NoReset (ticks (pulsePins 0 255)) ∧ (ticks (pulsePins 0 255)).map Inputs.pin = pulsePins 0 255) ∧
    (BlockInv (at_ .preamble .sync 0 0 0 (ticks (pulsePins 3 0) ++ [low])) ∧
      NoReset (ticks (pulsePins 3 0)) ∧ (ticks (pulsePins 3 0)).map Inputs.pin = pulsePins 3 0) :=
  ⟨⟨at_inv (by decide), ticks_noReset _, ticks_pin _⟩, ⟨at_inv (by decide), ticks_noReset _, ticks_pin _⟩⟩

/-- Forty-two pulses of the largest count. -/
def framePulses : List (Nat × Nat) := List.replicate 42 (4, 255)

theorem witness_DecodeFrameReadsTheFrame :
    let handshake := ticks [true, false, true, false]
    let train := ticks (trainPins framePulses)
    let tail := ticks [true, false]
    let s := idle (go :: (handshake ++ train ++ tail) ++ [high])
    s.params.Legal ∧ s.fsm = .idle ∧ go.rst = false ∧ go.start = true ∧
    handshake.length = s.params.resetTicks + 1 ∧ framePulses.length = 42 ∧ (∀ p ∈ framePulses, p.2 ≤ 255) ∧
    train.map Inputs.pin = trainPins framePulses ∧ tail.length = 2 ∧ NoReset (handshake ++ train ++ tail) ∧
    s.pending = go :: (handshake ++ train ++ tail) ++ [high] := by
  refine ⟨by decide, rfl, rfl, rfl, rfl, rfl, by decide, ticks_pin _, rfl, fun x hx => ?_, rfl⟩
  simp only [List.mem_append] at hx
  rcases hx with (h | h) | h <;> exact ticks_noReset _ x h

/-- At both ends of the counter. -/
theorem witness_MeasurePhaseIsBounded :
    (BlockInv (at_ .data .measure 41 254 0 ([high] ++ [low])) ∧ [high].length = 255 - (254 : Byte).toNat) ∧
    (BlockInv (at_ .preamble .measure 0 0 0 (ticks (List.replicate 255 true) ++ [])) ∧
      NoReset (ticks (List.replicate 255 true)) ∧
      (ticks (List.replicate 255 true)).length = 255 - (0 : Byte).toNat) :=
  ⟨⟨at_inv (by decide), by decide⟩,
    ⟨at_inv (by decide), ticks_noReset _, by rw [ticks_length, List.length_replicate]; rfl⟩⟩

theorem witness_CycleEndsIfLineGoesHighOften :
    BlockInv (at_ .data .measure 41 0 0 (ticks (List.replicate 256 true) ++ [])) ∧
    NoReset (ticks (List.replicate 256 true)) ∧
    256 * (42 - (41 : SymIdx).toNat) ≤ ((ticks (List.replicate 256 true)).filter Inputs.pin).length :=
  ⟨at_inv (by decide), ticks_noReset _, by rw [ticks_high, List.length_replicate]; decide⟩

/-- All conditions, and a pulse of each kind. -/
theorem witness_CalibrationSeparatesPulses :
    Separates { threshold := 28, resetTicks := 3 } 10 280 310 ∧ SeenHigh 280 10 28 ∧ SeenHigh 310 10 31 ∧
    280 ≤ 28 * 10 ∧ (28 + 3) * 10 ≤ 310 ∧ Calibrated { threshold := 28, resetTicks := 3 } 10 280 310 := by decide

/-- The calibration premise at its bound: `t1 / tTick` just below 256, seen in 255 or in 256 samples; and 256 is refused. -/
theorem witness_calibration_bound :
    Calibrated { threshold := 28, resetTicks := 3 } 10 280 2559 ∧ SeenHigh 2559 10 255 ∧ SeenHigh 2559 10 256 ∧
    ¬ Calibrated { threshold := 28, resetTicks := 3 } 10 280 2560 := by decide

/-- The samples of a pulse of `H` high samples and the low one that follows. -/
def pulsePinsOf (l H : Nat) : List Bool := List.replicate l false ++ List.replicate H true ++ [false]

/-- The longest long pulse and the shortest short one. -/
theorem witness_CalibratedPulseIsOneSymbol :
    (BlockInv (at_ .data .sync 41 0 0 (ticks (pulsePinsOf 2 256) ++ [low])) ∧
      Calibrated (at_ .data .sync 41 0 0 []).params 10 280 2559 ∧ SeenHigh 2559 10 256 ∧
      NoReset (ticks (pulsePinsOf 2 256)) ∧ (ticks (pulsePinsOf 2 256)).map Inputs.pin = pulsePinsOf 2 256) ∧
    (BlockInv (at_ .data .sync 2 0 0 (ticks (pulsePinsOf 0 1) ++ [low])) ∧
      Calibrated (at_ .data .sync 2 0 0 []).params 10 10 310 ∧ SeenHigh 10 10 1 ∧
      NoReset (ticks (pulsePinsOf 0 1)) ∧ (ticks (pulsePinsOf 0 1)).map Inputs.pin = pulsePinsOf 0 1) :=
  ⟨⟨at_inv (by decide), by decide, by decide, ticks_noReset _, ticks_pin _⟩,
    ⟨at_inv (by decide), by decide, by decide, ticks_noReset _, ticks_pin _⟩⟩

/-- The third clause, at the end of the tick of RELEASE: one START and the edge 0 to 1 (and the fourth clause's run). -/
theorem witness_CriticalSectionIsBalanced :
    let s := idle (go :: ([low, go, high] ++ [low]))
    BlockInv s ∧ s.fsm = .idle ∧ s.pending = go :: ([low, go, high] ++ [low]) ∧ go.start = true ∧
    NoReset (go :: [low, go, high]) ∧ [low, go, high].length = s.params.resetTicks ∧
    (∃ t, runTicks ([low, go, high].length + 1) s = .next t ∧ t.fsm = .handshake) ∧
    startTicks ([low, go, high].length + 1) s = 1 ∧ critEdges ([low, go, high].length + 1) s = [true] :=
  ⟨at_inv (by decide), rfl, rfl, rfl, by decide, rfl, ⟨_, rfl, rfl⟩, by decide, by decide⟩

/-- The fall of `crit`, in the last tick of a cycle (R176). -/
theorem test_fall_of_crit : critEdges 2 (at_ .validate .sync 42 0 0 [low, go]) = [false] := by decide

/-- The fifth clause: a line that is high throughout. -/
theorem witness_balanced_cycle_ends :
    let handshake := ticks [true, false, true, false]
    let l := ticks (List.replicate (256 * 42) true)
    let tail := ticks [true, false]
    let s := idle (go :: (handshake ++ l ++ tail) ++ [high])
    BlockInv s ∧ s.fsm = .idle ∧ s.pending = go :: (handshake ++ l ++ tail) ++ [high] ∧ go.start = true ∧
    NoReset (go :: (handshake ++ l ++ tail)) ∧ handshake.length = s.params.resetTicks + 1 ∧
    256 * 42 ≤ (l.filter Inputs.pin).length ∧ tail.length = 2 := by
  refine ⟨at_inv (by decide), rfl, rfl, rfl, fun x hx => ?_, rfl, ?_, rfl⟩
  · simp only [List.mem_cons, List.mem_append] at hx
    rcases hx with rfl | (h | h) | h
    · rfl
    all_goals exact ticks_noReset _ x h
  · rw [ticks_high, List.length_replicate]

/-- The last clause. -/
theorem witness_balanced_stuck_low :
    let s := at_ .preamble .sync 0 0 0 ([low, go] ++ [high])
    BlockInv s ∧ s.ph = .sync ∧ s.pending = [low, go] ++ [high] ∧ NoReset [low, go] ∧ ∀ x ∈ [low, go], x.pin = false :=
  ⟨at_inv (by decide), rfl, rfl, by decide, by decide⟩

end Sys2Proof.Tests
end

section
/-! Proofs about the state after reset (10_state.md R43). -/

namespace Sys2Proof.Machine

/-- With `DIAG` the diagnostic registers exist after reset, and hold what START and HRESET leave in them. -/
theorem State.reset_diag_of_diag (h : Config.diag = true) : State.reset.diag = some Diag.cleared := if_pos h

/-- Without `DIAG` there are no diagnostic registers (R39, R185). -/
theorem State.reset_diag_of_not_diag (h : Config.diag = false) : State.reset.diag = none := by
  simp [State.reset, h]

/-- Settles O1: the registers every build has are read off `State.reset`; the diagnostic ones by cases on `DIAG`. -/
theorem resetHoldsStatedValues : Obligations.ResetHoldsStatedValues := by
  refine ⟨rfl, rfl, rfl, rfl, rfl, Memory.read_nil, rfl, rfl, rfl, rfl, ?_⟩
  cases h : Config.diag with
  | false => exact .inl ⟨rfl, State.reset_diag_of_not_diag h⟩
  | true => exact .inr ⟨rfl, Diag.cleared, State.reset_diag_of_diag h, Diag.cleared_scnt, Memory.read_nil⟩

end Sys2Proof.Machine
end

section
/-! Proofs about the selector word (30_encoding.md R94, R95) and the reserved code (R100). -/

namespace Sys2Proof.Machine

/-! ### The fields of the selector word -/

theorem State.selector_rst (s : State) : s.selector.getLsbD 7 = s.inputs.rst := by
  simp only [State.selector, BitVec.getLsbD_append]
  simp

theorem State.selector_ph (s : State) : s.selector.getLsbD 3 = s.ph.bit := by
  simp only [State.selector, BitVec.getLsbD_append]
  simp

theorem State.selector_start (s : State) : s.selector.getLsbD 2 = s.inputs.start := by
  simp only [State.selector, BitVec.getLsbD_append]
  simp

theorem State.selector_pin (s : State) : s.selector.getLsbD 1 = s.inputs.pin := by
  simp only [State.selector, State.pinRead, BitVec.getLsbD_append]
  simp

theorem State.selector_tc (s : State) : s.selector.getLsbD 0 = s.terminalCount := by
  simp only [State.selector, BitVec.getLsbD_append]
  simp

/-- Bit `k` of the code is bit `4 + k` of the word: past the four fields below the code, and before `rst`. -/
theorem State.selector_fsm (s : State) : s.selector.extractLsb' 4 3 = s.fsm.code := by
  apply BitVec.eq_of_getLsbD_eq
  intro k hk
  simp only [BitVec.getLsbD_extractLsb', State.selector, BitVec.getLsbD_append]
  simp [hk]

theorem Phase.bit_eq_true_iff (p : Phase) : p.bit = true ↔ p = .measure := by
  cases p <;> simp [Phase.bit]

theorem Fsm.isSampler_iff (f : Fsm) : f.isSampler = true ↔ f = .preamble ∨ f = .data := by
  cases f <;> simp [Fsm.isSampler]

theorem State.terminalCount_iff (s : State) :
    s.terminalCount = true ↔
      (s.fsm = .reset ∧ s.rstCnt ≤ 1) ∨
      ((s.fsm = .preamble ∨ s.fsm = .data) ∧ s.ph = .measure ∧ 254 ≤ s.cnt.toNat) := by
  simp only [State.terminalCount, Bool.or_eq_true, Bool.and_eq_true, decide_eq_true_eq, Fsm.isSampler_iff, and_assoc]

/-- Settles O23: field by field; bit 0 is the terminal count. -/
theorem selectorWordBits : Obligations.SelectorWordBits := by
  intro s
  refine ⟨s.selector_rst, s.selector_fsm, ?_, s.selector_start, s.selector_pin, ?_⟩
  · rw [s.selector_ph, Phase.bit_eq_true_iff]
  · rw [s.selector_tc, s.terminalCount_iff]

/-! ### The reserved code -/

/-- The row of RSVD3 asks for `rst = 0` and the code 3, and looks at no other bit (R96). -/
theorem rsvd3_row_admits_iff :
    ∀ w : Byte, Instr.rsvd3.row.admits w = true ↔ w.getLsbD 7 = false ∧ w.extractLsb' 4 3 = 3 := by
  decide

theorem Fsm.code_eq_three_iff (f : Fsm) : f.code = 3 ↔ f = .reserved3 := by
  cases f <;> decide

theorem State.fetch_rsvd3_iff (s : State) :
    s.fetch = .ok .rsvd3 ↔ s.inputs.rst = false ∧ s.fsm = .reserved3 := by
  rw [State.fetch, Laws.RowWords.rsvd3, rsvd3_row_admits_iff, s.selector_rst, s.selector_fsm, Fsm.code_eq_three_iff]

/-- The operations that move `fsm`, each with the state it enters (R139 and HRESET of R200). -/
def fsmEdges : List (Instr × Fsm) :=
  [(.hreset, .idle), (.start, .reset), (.release, .handshake), (.toinput, .preamble), (.pendP, .data), (.ovrP, .data),
    (.pendD, .validate), (.ovrD, .validate), (.validate, .done), (.done, .idle)]

theorem State.completePreamble_fsm_eq_or (s : State) (c : Byte) :
    (s.completePreamble c).fsm = s.fsm ∨ (s.completePreamble c).fsm = .data :=
  (ite_eq_or_eq _ _ _).symm

theorem State.completeData_fsm_eq_or (s : State) (c : Byte) :
    (s.completeData c).fsm = s.fsm ∨ (s.completeData c).fsm = .validate :=
  (ite_eq_or_eq _ _ _).symm

/-- What an operation can do to `fsm`: leave it, or move it along its edge. -/
theorem exec_fsm {i : Instr} {s t : State} (h : exec i s = .next t) :
    t.fsm = s.fsm ∨ (i, t.fsm) ∈ fsmEdges := by
  cases i with
  | rsvd3 => cases h
  | nop | syncwait | rstwait | synchit | count =>
    cases h
    exact .inl rfl
  | hreset | start | release | toinput | validate | done =>
    cases h
    exact .inr (by simp [fsmEdges])
  | pendP | ovrP =>
    cases h
    exact (s.completePreamble_fsm_eq_or _).imp_right fun hf => by rw [hf]; decide
  | pendD | ovrD =>
    cases h
    exact (s.completeData_fsm_eq_or _).imp_right fun hf => by rw [hf]; decide

theorem fsmEdges_ne_reserved3 : ∀ e ∈ fsmEdges, e.2 ≠ .reserved3 := by decide

/-- Settles O13: RSVD3's row looks at `rst` and the code only, and no edge leads to the reserved code. -/
theorem reservedCodeRefusedAndNeverEntered : Obligations.ReservedCodeRefusedAndNeverEntered := by
  refine ⟨rfl, fun _ => rfl, State.fetch_rsvd3_iff, ?_⟩
  intro i s t h hs
  obtain hkeep | hedge := exec_fsm h
  · rwa [hkeep]
  · exact fsmEdges_ne_reserved3 _ hedge

end Sys2Proof.Machine
end

section
/-! Proofs about the Bit Sampler (40_bit_sampler.md section 2): the two operations of its sync phase (R110, R111) and the
classification (R114). -/

namespace Sys2Proof.Machine

/-! ### The sync phase -/

theorem Phase.bit_eq_false_iff (p : Phase) : p.bit = false ↔ p = .sync := by
  cases p <;> decide

theorem Fsm.code_isSampler_iff (f : Fsm) : f.code = 4 ∨ f.code = 5 ↔ f = .preamble ∨ f = .data := by
  cases f <;> decide

/-- A selector word's fields for a sampler tick of the sync phase in which `pin` reads `level` (R94, R103). -/
abbrev IsSyncWord (level : Bool) (w : Byte) : Prop :=
  w.getLsbD 7 = false ∧ (w.extractLsb' 4 3 = 4 ∨ w.extractLsb' 4 3 = 5) ∧ w.getLsbD 3 = false ∧ w.getLsbD 1 = level

/-- The row of SYNCWAIT looks neither at `start` nor at `tc`, nor at which of the two sampler states it is (R96). -/
theorem syncwait_row_admits_iff : ∀ w : Byte, Instr.syncwait.row.admits w = true ↔ IsSyncWord false w := by
  decide

/-- The row of SYNCHIT is that of SYNCWAIT with `pin` high (R96). -/
theorem synchit_row_admits_iff : ∀ w : Byte, Instr.synchit.row.admits w = true ↔ IsSyncWord true w := by
  decide

theorem State.isSyncWord_selector_iff (s : State) (level : Bool) :
    IsSyncWord level s.selector ↔
      s.inputs.rst = false ∧ (s.fsm = .preamble ∨ s.fsm = .data) ∧ s.ph = .sync ∧ s.inputs.pin = level := by
  rw [IsSyncWord, s.selector_rst, s.selector_fsm, s.selector_ph, s.selector_pin, Fsm.code_isSampler_iff,
    Phase.bit_eq_false_iff]

theorem State.fetch_syncwait_iff (s : State) : s.fetch = .ok .syncwait ↔ IsSyncWord false s.selector := by
  rw [State.fetch, Laws.RowWords.syncwait, syncwait_row_admits_iff]

theorem State.fetch_synchit_iff (s : State) : s.fetch = .ok .synchit ↔ IsSyncWord true s.selector := by
  rw [State.fetch, Laws.RowWords.synchit, synchit_row_admits_iff]

/-- Settles O14: the meaning is the identity; the selection is SYNCWAIT's row read on the fields of the selector word. -/
theorem syncwaitChangesNothing : Obligations.SyncwaitChangesNothing :=
  ⟨fun _ => rfl, fun s => s.fetch_syncwait_iff.trans (s.isSyncWord_selector_iff false)⟩

/-- Settles O15: the meaning writes `ph` and `cnt` only; the selection is SYNCHIT's row read on the fields of the selector
word. -/
theorem synchitStartsMeasuring : Obligations.SynchitStartsMeasuring :=
  ⟨fun _ => rfl, fun s => s.fetch_synchit_iff.trans (s.isSyncWord_selector_iff true)⟩

/-! ### The classification -/

/-- Settles O17: by the two sides of the comparison; 255 exceeds every threshold there is; the rule's four further values
at threshold 28 are evaluated. -/
theorem classifyIsStrictComparison : Obligations.ClassifyIsStrictComparison := by
  refine ⟨fun th c => ?_, classify_ceiling, by decide⟩
  split
  next hlong => exact (classify_iff th c).mpr hlong
  next hshort => exact Bool.eq_false_iff.mpr (mt (classify_iff th c).mp hshort)

end Sys2Proof.Machine
end

section
/-! The selection of every operation but RSVD3, SYNCWAIT and SYNCHIT (whose lemmas stand above), read on the block's
registers and inputs (30_encoding.md R94 to R96). -/

namespace Sys2Proof.Machine

/-! ### The fields the rows look at -/

theorem Fsm.ofCode_code : Function.LeftInverse Fsm.ofCode Fsm.code := by
  intro f
  cases f <;> rfl

/-- A selector word of a tick without `rst` in the decoder state `f` (R94). -/
abbrev IsRunWord (f : Fsm) (w : Byte) : Prop := w.getLsbD 7 = false ∧ w.extractLsb' 4 3 = f.code

theorem State.isRunWord_selector_iff (s : State) (f : Fsm) :
    IsRunWord f s.selector ↔ s.inputs.rst = false ∧ s.fsm = f := by
  rw [IsRunWord, s.selector_rst, s.selector_fsm, Fsm.ofCode_code.injective.eq_iff]

/-- A selector word of a tick without `rst` in the measure phase of the decoder state `f`, in which `pin` reads `level`
(R94, R103). -/
abbrev IsMeasureWord (f : Fsm) (level : Bool) (w : Byte) : Prop :=
  IsRunWord f w ∧ w.getLsbD 3 = true ∧ w.getLsbD 1 = level

theorem State.isMeasureWord_selector_iff (s : State) (f : Fsm) (level : Bool) :
    IsMeasureWord f level s.selector ↔
      s.inputs.rst = false ∧ s.fsm = f ∧ s.ph = .measure ∧ s.inputs.pin = level := by
  rw [IsMeasureWord, s.isRunWord_selector_iff, s.selector_ph, Phase.bit_eq_true_iff, s.selector_pin, and_assoc]

/-- In RESET the terminal count is that of the reset pulse (R94). -/
theorem State.terminalCount_of_reset {s : State} (h : s.fsm = .reset) :
    s.terminalCount = decide (s.rstCnt ≤ 1) := by
  simp [State.terminalCount, h, Fsm.isSampler]

/-- In the measure phase the terminal count is that of the pulse counter (R94). -/
theorem State.terminalCount_of_measure {s : State} (h : s.fsm = .preamble ∨ s.fsm = .data) (hp : s.ph = .measure) :
    s.terminalCount = decide (254 ≤ s.cnt.toNat) := by
  obtain h | h := h <;> simp [State.terminalCount, h, hp, Fsm.isSampler]

/-! ### The rows -/

theorem hreset_row_admits_iff : ∀ w : Byte, Instr.hreset.row.admits w = true ↔ w.getLsbD 7 = true := by decide

theorem nop_row_admits_iff :
    ∀ w : Byte, Instr.nop.row.admits w = true ↔ IsRunWord .idle w ∧ w.getLsbD 2 = false := by decide

theorem start_row_admits_iff :
    ∀ w : Byte, Instr.start.row.admits w = true ↔ IsRunWord .idle w ∧ w.getLsbD 2 = true := by decide

theorem rstwait_row_admits_iff :
    ∀ w : Byte, Instr.rstwait.row.admits w = true ↔ IsRunWord .reset w ∧ w.getLsbD 0 = false := by decide

theorem release_row_admits_iff :
    ∀ w : Byte, Instr.release.row.admits w = true ↔ IsRunWord .reset w ∧ w.getLsbD 0 = true := by decide

theorem toinput_row_admits_iff : ∀ w : Byte, Instr.toinput.row.admits w = true ↔ IsRunWord .handshake w := by decide

theorem count_row_admits_iff :
    ∀ w : Byte, Instr.count.row.admits w = true ↔
      (IsMeasureWord .preamble true w ∨ IsMeasureWord .data true w) ∧ w.getLsbD 0 = false := by decide

theorem pendP_row_admits_iff :
    ∀ w : Byte, Instr.pendP.row.admits w = true ↔ IsMeasureWord .preamble false w := by decide

theorem ovrP_row_admits_iff :
    ∀ w : Byte, Instr.ovrP.row.admits w = true ↔ IsMeasureWord .preamble true w ∧ w.getLsbD 0 = true := by decide

theorem pendD_row_admits_iff :
    ∀ w : Byte, Instr.pendD.row.admits w = true ↔ IsMeasureWord .data false w := by decide

theorem ovrD_row_admits_iff :
    ∀ w : Byte, Instr.ovrD.row.admits w = true ↔ IsMeasureWord .data true w ∧ w.getLsbD 0 = true := by decide

theorem validate_row_admits_iff : ∀ w : Byte, Instr.validate.row.admits w = true ↔ IsRunWord .validate w := by decide

theorem done_row_admits_iff : ∀ w : Byte, Instr.done.row.admits w = true ↔ IsRunWord .done w := by decide

/-! ### When a tick selects an operation -/

theorem State.fetch_hreset_iff (s : State) : s.fetch = .ok .hreset ↔ s.inputs.rst = true := by
  rw [State.fetch, Laws.RowWords.hreset, hreset_row_admits_iff, s.selector_rst]

theorem State.fetch_nop_iff (s : State) :
    s.fetch = .ok .nop ↔ s.inputs.rst = false ∧ s.fsm = .idle ∧ s.inputs.start = false := by
  rw [State.fetch, Laws.RowWords.nop, nop_row_admits_iff, s.isRunWord_selector_iff, s.selector_start, and_assoc]

theorem State.fetch_start_iff (s : State) :
    s.fetch = .ok .start ↔ s.inputs.rst = false ∧ s.fsm = .idle ∧ s.inputs.start = true := by
  rw [State.fetch, Laws.RowWords.start, start_row_admits_iff, s.isRunWord_selector_iff, s.selector_start, and_assoc]

theorem State.fetch_rstwait_iff (s : State) :
    s.fetch = .ok .rstwait ↔ s.inputs.rst = false ∧ s.fsm = .reset ∧ 2 ≤ s.rstCnt := by
  rw [State.fetch, Laws.RowWords.rstwait, rstwait_row_admits_iff, s.isRunWord_selector_iff, s.selector_tc, and_assoc]
  refine and_congr_right fun _ => and_congr_right fun hf => ?_
  rw [State.terminalCount_of_reset hf, decide_eq_false_iff_not, not_le, Nat.lt_iff_add_one_le]

theorem State.fetch_release_iff (s : State) :
    s.fetch = .ok .release ↔ s.inputs.rst = false ∧ s.fsm = .reset ∧ s.rstCnt ≤ 1 := by
  rw [State.fetch, Laws.RowWords.release, release_row_admits_iff, s.isRunWord_selector_iff, s.selector_tc, and_assoc]
  refine and_congr_right fun _ => and_congr_right fun hf => ?_
  rw [State.terminalCount_of_reset hf, decide_eq_true_iff]

theorem State.fetch_toinput_iff (s : State) :
    s.fetch = .ok .toinput ↔ s.inputs.rst = false ∧ s.fsm = .handshake := by
  rw [State.fetch, Laws.RowWords.toinput, toinput_row_admits_iff, s.isRunWord_selector_iff]

/-- COUNT is the one row that does not tell PREAMBLE from DATA but looks at `tc` (R96). -/
theorem State.fetch_count_iff (s : State) :
    s.fetch = .ok .count ↔
      s.inputs.rst = false ∧ (s.fsm = .preamble ∨ s.fsm = .data) ∧ s.ph = .measure ∧ s.inputs.pin = true ∧
        s.cnt.toNat ≤ 253 := by
  rw [State.fetch, Laws.RowWords.count, count_row_admits_iff, s.isMeasureWord_selector_iff,
    s.isMeasureWord_selector_iff, ← and_or_left, ← or_and_right, s.selector_tc]
  simp only [and_assoc]
  refine and_congr_right fun _ => and_congr_right fun hf => and_congr_right fun hp => and_congr_right fun _ => ?_
  rw [State.terminalCount_of_measure hf hp, decide_eq_false_iff_not, not_le, Nat.lt_succ_iff]

theorem State.fetch_pendP_iff (s : State) :
    s.fetch = .ok .pendP ↔ s.inputs.rst = false ∧ s.fsm = .preamble ∧ s.ph = .measure ∧ s.inputs.pin = false := by
  rw [State.fetch, Laws.RowWords.pendP, pendP_row_admits_iff, s.isMeasureWord_selector_iff]

theorem State.fetch_pendD_iff (s : State) :
    s.fetch = .ok .pendD ↔ s.inputs.rst = false ∧ s.fsm = .data ∧ s.ph = .measure ∧ s.inputs.pin = false := by
  rw [State.fetch, Laws.RowWords.pendD, pendD_row_admits_iff, s.isMeasureWord_selector_iff]

/-- The word of a high sample at the ceiling, in either sampler state: OVR.P and OVR.D (R96). -/
theorem State.isMeasureWord_selector_tc_iff (s : State) {f : Fsm} (hf : f = .preamble ∨ f = .data) :
    IsMeasureWord f true s.selector ∧ s.selector.getLsbD 0 = true ↔
      s.inputs.rst = false ∧ s.fsm = f ∧ s.ph = .measure ∧ s.inputs.pin = true ∧ 254 ≤ s.cnt.toNat := by
  rw [s.isMeasureWord_selector_iff, s.selector_tc]
  simp only [and_assoc]
  refine and_congr_right fun _ => and_congr_right fun h => and_congr_right fun hp => and_congr_right fun _ => ?_
  rw [State.terminalCount_of_measure (h ▸ hf) hp, decide_eq_true_iff]

theorem State.fetch_ovrP_iff (s : State) :
    s.fetch = .ok .ovrP ↔
      s.inputs.rst = false ∧ s.fsm = .preamble ∧ s.ph = .measure ∧ s.inputs.pin = true ∧ 254 ≤ s.cnt.toNat := by
  rw [State.fetch, Laws.RowWords.ovrP, ovrP_row_admits_iff, s.isMeasureWord_selector_tc_iff (.inl rfl)]

theorem State.fetch_ovrD_iff (s : State) :
    s.fetch = .ok .ovrD ↔
      s.inputs.rst = false ∧ s.fsm = .data ∧ s.ph = .measure ∧ s.inputs.pin = true ∧ 254 ≤ s.cnt.toNat := by
  rw [State.fetch, Laws.RowWords.ovrD, ovrD_row_admits_iff, s.isMeasureWord_selector_tc_iff (.inr rfl)]

theorem State.fetch_validate_iff (s : State) :
    s.fetch = .ok .validate ↔ s.inputs.rst = false ∧ s.fsm = .validate := by
  rw [State.fetch, Laws.RowWords.validate, validate_row_admits_iff, s.isRunWord_selector_iff]

theorem State.fetch_done_iff (s : State) : s.fetch = .ok .done ↔ s.inputs.rst = false ∧ s.fsm = .done := by
  rw [State.fetch, Laws.RowWords.done, done_row_admits_iff, s.isRunWord_selector_iff]

end Sys2Proof.Machine
end

section
/-! Proofs about single operations of the Frame Decoder (41_frame_decoder.md R130, R131, R134, R137). -/

namespace Sys2Proof.Machine

/-- Settles O5: the meaning is the identity; the selection is NOP's row. -/
theorem nopChangesNothing : Obligations.NopChangesNothing := ⟨fun _ => rfl, State.fetch_nop_iff⟩

/-- An operation that leaves `Diag.cleared` where there are diagnostic registers clears them (R131, R200). -/
theorem diagCleared_of_map {s t : State} (h : t.diag = s.diag.map fun _ => Diag.cleared) : DiagCleared s t := by
  unfold DiagCleared
  rw [h]
  cases s.diag with
  | none => trivial
  | some d => exact ⟨Diag.cleared_scnt, Memory.read_nil⟩

/-- Settles O6: the next state is read off the meaning; the buffer it leaves is the empty space, and the diagnostics are
cleared where there are any. -/
theorem startBeginsResetPulse : Obligations.StartBeginsResetPulse :=
  ⟨fun _ => ⟨_, rfl, rfl, Memory.read_nil, diagCleared_of_map rfl⟩, State.fetch_start_iff⟩

/-- Settles O9: the meaning writes the three registers only; the selection is TOINPUT's row. -/
theorem toinputReleasesPad : Obligations.ToinputReleasesPad := ⟨fun _ => rfl, State.fetch_toinput_iff⟩

/-- Settles O12: a tick that selects DONE is in the state DONE, where output `done` is 1, and its meaning leaves the block
idle, where both outputs are 0. -/
theorem doneClosesCriticalSection : Obligations.DoneClosesCriticalSection := by
  refine ⟨fun _ => rfl, fun s t hfetch hstep => ?_, State.fetch_done_iff⟩
  obtain ⟨-, hf⟩ := s.fetch_done_iff.mp hfetch
  rw [step_of_fetch hfetch] at hstep
  cases hstep
  exact ⟨decide_eq_true hf, rfl, rfl⟩

end Sys2Proof.Machine
end

section
/-! Proofs about the sequencer's relation (41_frame_decoder.md R138, R139): the selector map answers its operation in every
state, and a step of the invariant moves to its position. -/

namespace Sys2Proof.Machine

/-! ### The operation -/

/-- What a selected operation's row says of the tick leads to that operation in the table of R139. -/
theorem sequencerOp_of_fetch {s : State} {i : Instr} (h : s.fetch = .ok i) : sequencerOp s = i := by
  cases i with
  | hreset => simp [sequencerOp, s.fetch_hreset_iff.mp h]
  | nop => simp [sequencerOp, s.fetch_nop_iff.mp h]
  | start => simp [sequencerOp, s.fetch_start_iff.mp h]
  | rstwait => simp [sequencerOp, s.fetch_rstwait_iff.mp h]
  | release =>
    obtain ⟨hrst, hf, hcnt⟩ := s.fetch_release_iff.mp h
    simp [sequencerOp, hrst, hf, Nat.not_le.mpr (Nat.lt_succ_of_le hcnt)]
  | toinput => simp [sequencerOp, s.fetch_toinput_iff.mp h]
  | rsvd3 => simp [sequencerOp, s.fetch_rsvd3_iff.mp h]
  | syncwait =>
    obtain ⟨hrst, hf | hf, hp, hpin⟩ := (s.isSyncWord_selector_iff false).mp (s.fetch_syncwait_iff.mp h) <;>
      simp [sequencerOp, hrst, hf, hp, hpin]
  | synchit =>
    obtain ⟨hrst, hf | hf, hp, hpin⟩ := (s.isSyncWord_selector_iff true).mp (s.fetch_synchit_iff.mp h) <;>
      simp [sequencerOp, hrst, hf, hp, hpin]
  | count =>
    obtain ⟨hrst, hf | hf, hp, hpin, hcnt⟩ := s.fetch_count_iff.mp h <;> simp [sequencerOp, hrst, hf, hp, hpin, hcnt]
  | pendP => simp [sequencerOp, s.fetch_pendP_iff.mp h]
  | ovrP =>
    obtain ⟨hrst, hf, hp, hpin, hcnt⟩ := s.fetch_ovrP_iff.mp h
    simp [sequencerOp, hrst, hf, hp, hpin, Nat.not_le.mpr hcnt]
  | pendD => simp [sequencerOp, s.fetch_pendD_iff.mp h]
  | ovrD =>
    obtain ⟨hrst, hf, hp, hpin, hcnt⟩ := s.fetch_ovrD_iff.mp h
    simp [sequencerOp, hrst, hf, hp, hpin, Nat.not_le.mpr hcnt]
  | validate => simp [sequencerOp, s.fetch_validate_iff.mp h]
  | done => simp [sequencerOp, s.fetch_done_iff.mp h]

/-- In every state the operation map, applied to the selector word, answers the operation of R139's table. -/
theorem State.fetch_eq_sequencerOp (s : State) : s.fetch = .ok (sequencerOp s) := by
  obtain ⟨i, hi⟩ := fetch_total s
  rw [hi, sequencerOp_of_fetch hi]

/-! ### The position -/

theorem State.completePreamble_position (s : State) (c : Byte) :
    (s.completePreamble c).position = (if s.symidx = 1 then .data else s.fsm, .sync, s.symidx + 1) := rfl

theorem State.completeData_position (s : State) (c : Byte) :
    (s.completeData c).position = (if s.symidx = 41 then .validate else s.fsm, .sync, s.symidx + 1) := rfl

/-- The preamble has two symbols: the one of index 0 leaves `fsm`, the one of index 1 leads to DATA (R45 (c), R135). -/
theorem BlockInv.completePreamble_position {s : State} (hs : BlockInv s) (hf : s.fsm = .preamble) (c : Byte) :
    (s.endTick.completePreamble c).position =
      (if s.symidx.toNat = 0 then .preamble else .data, .sync, s.symidx + 1) := by
  have hfit := hs.symidx_fits
  rw [hf] at hfit
  simp only [symidxFits, Bool.or_eq_true, decide_eq_true_eq] at hfit
  obtain h | h := hfit <;> simp [State.completePreamble_position, h, hf]

/-- The data symbols have the indexes 2 to 41: only the one of index 41 leads to VALIDATE (R45 (c), R151). -/
theorem BlockInv.completeData_position {s : State} (hs : BlockInv s) (hf : s.fsm = .data) (c : Byte) :
    (s.endTick.completeData c).position =
      (if s.symidx.toNat ≤ 40 then .data else .validate, .sync, s.symidx + 1) := by
  have hfit := hs.symidx_fits
  rw [hf] at hfit
  simp only [symidxFits, Bool.and_eq_true, decide_eq_true_eq] at hfit
  have hlast : s.symidx = 41 ↔ ¬ s.symidx.toNat ≤ 40 := by
    rw [← BitVec.toNat_inj, show (41 : SymIdx).toNat = 41 from rfl]
    omega
  simp only [State.completeData_position, State.endTick_symidx, State.endTick_fsm, hlast, hf, ite_not]

/-- Every operation the invariant lets a tick select completes, in the position of R139's table. -/
theorem BlockInv.exec_position {s : State} (hs : BlockInv s) {i : Instr} (h : s.fetch = .ok i) :
    ∃ t, exec i s.endTick = .next t ∧ t.position = sequencerNext s := by
  unfold sequencerNext
  rw [sequencerOp_of_fetch h]
  cases i with
  | rsvd3 => exact absurd (s.fetch_rsvd3_iff.mp h).2 hs.fsm_not_reserved
  | hreset | start | release | toinput | synchit | validate | done => exact ⟨_, rfl, rfl⟩
  | nop =>
    obtain ⟨-, hf, -⟩ := s.fetch_nop_iff.mp h
    exact ⟨_, rfl, congrArg (·, s.ph, s.symidx) hf⟩
  | rstwait =>
    obtain ⟨-, hf, -⟩ := s.fetch_rstwait_iff.mp h
    exact ⟨_, rfl, congrArg (·, s.ph, s.symidx) hf⟩
  | syncwait =>
    obtain ⟨-, -, hp, -⟩ := (s.isSyncWord_selector_iff false).mp (s.fetch_syncwait_iff.mp h)
    exact ⟨_, rfl, congrArg (s.fsm, ·, s.symidx) hp⟩
  | count =>
    obtain ⟨-, -, hp, -⟩ := s.fetch_count_iff.mp h
    exact ⟨_, rfl, congrArg (s.fsm, ·, s.symidx) hp⟩
  | pendP =>
    obtain ⟨-, hf, -⟩ := s.fetch_pendP_iff.mp h
    exact ⟨_, rfl, hs.completePreamble_position hf _⟩
  | ovrP =>
    obtain ⟨-, hf, -⟩ := s.fetch_ovrP_iff.mp h
    exact ⟨_, rfl, hs.completePreamble_position hf _⟩
  | pendD =>
    obtain ⟨-, hf, -⟩ := s.fetch_pendD_iff.mp h
    exact ⟨_, rfl, hs.completeData_position hf _⟩
  | ovrD =>
    obtain ⟨-, hf, -⟩ := s.fetch_ovrD_iff.mp h
    exact ⟨_, rfl, hs.completeData_position hf _⟩

/-- Settles O28: the tick selects the table's operation, which completes in the table's position. -/
theorem stepFollowsTransitionRelation : Obligations.StepFollowsTransitionRelation := by
  intro s hs
  have hfetch := s.fetch_eq_sequencerOp
  refine ⟨hfetch, ?_⟩
  rw [step_of_fetch hfetch]
  exact hs.exec_position hfetch

/-! ### What does not matter to a step -/

/-- Two states that agree once their inputs are used up, and in the operation of R139's table, step alike. -/
theorem step_congr {s t : State} (hop : sequencerOp s = sequencerOp t) (hend : s.endTick = t.endTick) :
    step s = step t := by
  rw [step_of_fetch s.fetch_eq_sequencerOp, step_of_fetch t.fetch_eq_sequencerOp, hop, hend]

/-- Only in IDLE does the table of R139 look at `start`. -/
theorem sequencerOp_start_of_busy {s : State} {x : Inputs} {rest : List Inputs} (b : Bool)
    (hp : s.pending = x :: rest) (hbusy : s.fsm ≠ .idle) :
    sequencerOp { s with pending := { x with start := b } :: rest } = sequencerOp s := by
  unfold sequencerOp
  rw [State.inputs_of_pending hp, State.inputs_of_pending rfl]
  cases hf : s.fsm with
  | idle => exact absurd hf hbusy
  | reset | handshake | reserved3 | validate | done => rfl
  | preamble | data => cases s.ph <;> rfl

/-- Settles O42: a busy block's operation does not look at `start`, and the inputs of the tick are used up with it. -/
theorem startIgnoredWhileBusy : Obligations.StartIgnoredWhileBusy := by
  intro s x rest b hp hbusy
  refine step_congr (sequencerOp_start_of_busy b hp (of_decide_eq_true hbusy)) ?_
  simp [State.endTick, hp]

end Sys2Proof.Machine
end

section
/-! Proofs about the reset pulse over a run (41_frame_decoder.md R132, R133, R144). -/

namespace Sys2Proof.Machine

/-! ### Its ticks, one by one -/

theorem step_of_fetch_pending {s : State} {i : Instr} {x : Inputs} {rest : List Inputs} (hp : s.pending = x :: rest)
    (h : s.fetch = .ok i) : step s = exec i { s with pending := rest, tick := s.tick + 1 } := by
  rw [step_of_fetch h, State.endTick, hp]
  rfl

theorem State.inputs_rst_of_pending {s : State} {x : Inputs} {rest : List Inputs} (hp : s.pending = x :: rest)
    (hx : x.rst = false) : s.inputs.rst = false := by
  rw [State.inputs_of_pending hp, hx]

/-- START's tick, seen in what the reset pulse depends on (R131). -/
theorem step_start {s : State} {x : Inputs} {rest : List Inputs} (hf : s.fsm = .idle) (hp : s.pending = x :: rest)
    (hx : x.rst = false) (hstart : x.start = true) :
    ∃ t, step s = .next t ∧ t.fsm = .reset ∧ t.rstCnt = s.params.resetTicks ∧ t.symidx = 0 ∧
      t.lineDrive = some false ∧ t.crit = s.crit ∧ t.pending = rest := by
  have hfetch := s.fetch_start_iff.mpr ⟨s.inputs_rst_of_pending hp hx, hf, by rw [State.inputs_of_pending hp, hstart]⟩
  exact ⟨_, step_of_fetch_pending hp hfetch, rfl, rfl, rfl, rfl, rfl, rfl⟩

theorem step_rstwait {s : State} {x : Inputs} {rest : List Inputs} (hf : s.fsm = .reset) (hcnt : 2 ≤ s.rstCnt)
    (hp : s.pending = x :: rest) (hx : x.rst = false) :
    step s = .next { s with rstCnt := s.rstCnt - 1, pending := rest, tick := s.tick + 1 } :=
  step_of_fetch_pending hp (s.fetch_rstwait_iff.mpr ⟨s.inputs_rst_of_pending hp hx, hf, hcnt⟩)

theorem step_release {s : State} {x : Inputs} {rest : List Inputs} (hf : s.fsm = .reset) (hcnt : s.rstCnt ≤ 1)
    (hp : s.pending = x :: rest) (hx : x.rst = false) :
    step s = .next { s with
      rstCnt := 0, pinOut := true, crit := true, fsm := .handshake, pending := rest, tick := s.tick + 1 } :=
  step_of_fetch_pending hp (s.fetch_release_iff.mpr ⟨s.inputs_rst_of_pending hp hx, hf, hcnt⟩)

theorem step_toinput {s : State} {x : Inputs} {rest : List Inputs} (hf : s.fsm = .handshake)
    (hp : s.pending = x :: rest) (hx : x.rst = false) :
    step s = .next { s with pinOe := false, ph := .sync, fsm := .preamble, pending := rest, tick := s.tick + 1 } :=
  step_of_fetch_pending hp (s.fetch_toinput_iff.mpr ⟨s.inputs_rst_of_pending hp hx, hf⟩)

/-! ### The countdown and its end -/

/-- Any number of ticks short of the remaining count run RSTWAIT, which writes nothing but the count (R132). -/
theorem runTicks_rstwait {s : State} {l rest : List Inputs} (hf : s.fsm = .reset) (hcnt : l.length < s.rstCnt)
    (hp : s.pending = l ++ rest) (hl : NoReset l) :
    runTicks l.length s =
      .next { s with rstCnt := s.rstCnt - l.length, pending := rest, tick := s.tick + l.length } := by
  induction l generalizing s with
  | nil =>
    cases hp
    rfl
  | cons x l ih =>
    rw [List.length_cons] at hcnt
    obtain ⟨hx, hl⟩ := List.forall_mem_cons.mp hl
    have hstep := step_rstwait (rest := l ++ rest) hf (by omega) hp hx
    have hrun := ih (s := { s with rstCnt := s.rstCnt - 1, pending := l ++ rest, tick := s.tick + 1 }) hf
      (Nat.lt_sub_of_add_lt hcnt) rfl hl
    rw [List.length_cons, runTicks_succ hstep, hrun]
    simp only [Nat.sub_sub, Nat.add_assoc, Nat.add_comm 1]

/-- While the count lasts the block stays in RESET, with the line and the critical section as they are. -/
theorem runTicks_in_reset {s : State} {l rest : List Inputs} (hf : s.fsm = .reset) (hp : s.pending = l ++ rest)
    (hl : NoReset l) (hlen : s.rstCnt ≤ l.length) {k : Nat} (hk : k < s.rstCnt) :
    ∃ t, runTicks k s = .next t ∧ t.fsm = .reset ∧ t.lineDrive = s.lineDrive ∧ t.crit = s.crit := by
  have htake : (l.take k).length = k := List.length_take_of_le (by omega)
  have hrun := runTicks_rstwait (l := l.take k) (rest := l.drop k ++ rest) hf (by omega)
    (by rw [hp, ← List.append_assoc, List.take_append_drop]) fun x hx => hl x (List.mem_of_mem_take hx)
  rw [htake] at hrun
  exact ⟨_, hrun, hf, rfl, rfl⟩

/-- After as many ticks as the count says, RELEASE has run once, in the last of them (R133). -/
theorem runTicks_release {s : State} {l rest : List Inputs} (hf : s.fsm = .reset) (hpos : 1 ≤ s.rstCnt)
    (hp : s.pending = l ++ rest) (hl : NoReset l) (hlen : l.length = s.rstCnt) :
    runTicks s.rstCnt s = .next { s with
      rstCnt := 0, pinOut := true, crit := true, fsm := .handshake, pending := rest, tick := s.tick + s.rstCnt } := by
  obtain rfl | ⟨l, x, rfl⟩ := l.eq_nil_or_concat'
  · simp only [List.length_nil] at hlen
    omega
  rw [List.length_append, List.length_singleton] at hlen
  obtain ⟨hl, hx⟩ := List.forall_mem_append.mp hl
  have hwait := runTicks_rstwait hf (by omega) (by rw [hp, List.append_assoc]) hl
  rw [← hlen, runTicks_add hwait]
  exact runTicks_one (step_release hf (by simp only; omega) rfl (hx x (List.mem_singleton_self x)))

/-! ### The line -/

theorem BlockInv.lineDrive_in_reset {s : State} (hs : BlockInv s) (hf : s.fsm = .reset) :
    s.lineDrive = some false := by
  simp [State.lineDrive, hs.pinOe_iff, hs.pinOut_iff, hf]

theorem State.lineDrive_eq_none_iff (s : State) : s.lineDrive = none ↔ s.pinOe = false := by
  simp [State.lineDrive]

theorem State.lineDrive_eq_some_iff (s : State) (b : Bool) : s.lineDrive = some b ↔ s.pinOe = true ∧ s.pinOut = b := by
  simp [State.lineDrive]

/-- Settles O8: the run is the countdown, with the line as the invariant has it in RESET, and then RELEASE. -/
theorem releaseOpensCriticalSection : Obligations.ReleaseOpensCriticalSection := by
  refine ⟨fun _ => rfl, State.fetch_release_iff, fun s l rest hs hf hcnt hp hl hlen => ?_⟩
  have hlow := hs.lineDrive_in_reset hf
  rw [← hcnt] at hlen ⊢
  constructor
  · intro k hk
    obtain ⟨t, hrun, ht, hline, -⟩ := runTicks_in_reset hf hp hl hlen.ge hk
    exact ⟨t, hrun, ht, hline.trans hlow⟩
  · have hoe := (s.lineDrive_eq_some_iff false).mp hlow
    exact ⟨_, runTicks_release hf (hs.rstCnt_in_reset hf).1 hp hl hlen, rfl,
      (State.lineDrive_eq_some_iff _ true).mpr ⟨hoe.1, rfl⟩⟩

/-- Settles O49: the invariant ties the direction of the pad to `fsm`; the run is START, the countdown, RELEASE and
TOINPUT. -/
theorem resetPulseWaveform : Obligations.ResetPulseWaveform := by
  constructor
  · intro s hs
    rw [s.lineDrive_eq_none_iff, hs.pinOe_iff, Bool.or_eq_false_iff, decide_eq_false_iff_not, decide_eq_false_iff_not]
  intro s x l rest hlegal hf hcrit hp hx hstart hl hlen
  obtain ⟨t, hstep, ht, hcnt, hsym, hline, htcrit, htp⟩ := step_start hf hp hx hstart
  obtain rfl | ⟨l, y, rfl⟩ := l.eq_nil_or_concat'
  · cases hlen
  rw [List.length_append, List.length_singleton, Nat.add_right_cancel_iff] at hlen
  obtain ⟨hl, hy⟩ := List.forall_mem_append.mp hl
  rw [List.append_assoc] at htp
  rw [Params.Legal, ← hcnt] at hlegal
  rw [← hcnt] at hlen ⊢
  have hrelease := (runTicks_succ hstep _).trans (runTicks_release ht hlegal htp hl hlen)
  have hoe := ((t.lineDrive_eq_some_iff false).mp hline).1
  refine ⟨fun k hk hk' => ?_, ⟨_, hrelease, rfl, (State.lineDrive_eq_some_iff _ true).mpr ⟨hoe, rfl⟩, rfl⟩, ?_⟩
  · obtain ⟨u, hrun, hu, huline, hucrit⟩ := runTicks_in_reset ht htp hl hlen.ge (k := k - 1) (by omega)
    rw [← runTicks_succ hstep, Nat.sub_add_cancel hk] at hrun
    exact ⟨u, hrun, hu, huline.trans hline, hucrit.trans (htcrit.trans hcrit)⟩
  · rw [runTicks_add hrelease 1]
    exact ⟨_, runTicks_one (step_toinput rfl rfl (hy y (List.mem_singleton_self y))),
      congrArg (Fsm.preamble, Phase.sync, ·) hsym, rfl, rfl, rfl⟩

end Sys2Proof.Machine
end

section
/-! Proofs about VALIDATE and the checksum law (42_assembly_checksum.md R153 to R155). -/

namespace Sys2Proof.Machine

/-! ### The checksum law -/

/-- Ten bits hold the sum of four bytes (at most 1020), so only the truncation to eight reduces it (R87). -/
theorem checksumSum_toNat (b0 b1 b2 b3 : Byte) :
    (checksumSum b0 b1 b2 b3).toNat = (b0.toNat + b1.toNat + b2.toNat + b3.toNat) % 256 := by
  simp only [checksumSum, BitVec.toNat_setWidth, BitVec.toNat_add]
  omega

/-- Truncating once at the end or after each addition gives the same byte (R153). -/
theorem checksumSum_eq_add (b0 b1 b2 b3 : Byte) : checksumSum b0 b1 b2 b3 = b0 + b1 + b2 + b3 := by
  apply BitVec.eq_of_toNat_eq
  simp only [checksumSum_toNat, BitVec.toNat_add, Nat.mod_add_mod]

theorem checksumHolds_iff (b0 b1 b2 b3 b4 : Byte) :
    checksumHolds b0 b1 b2 b3 b4 = true ↔ checksumSum b0 b1 b2 b3 = b4 := beq_iff_eq

theorem checksumHolds_iff_mod (b0 b1 b2 b3 b4 : Byte) :
    checksumHolds b0 b1 b2 b3 b4 = true ↔ (b0.toNat + b1.toNat + b2.toNat + b3.toNat) % 256 = b4.toNat := by
  rw [checksumHolds_iff, ← BitVec.toNat_inj, checksumSum_toNat]

theorem checksumHolds_eq_decide_mod (b0 b1 b2 b3 b4 : Byte) :
    checksumHolds b0 b1 b2 b3 b4 = decide ((b0.toNat + b1.toNat + b2.toNat + b3.toNat) % 256 = b4.toNat) := by
  rw [Bool.eq_iff_iff, checksumHolds_iff_mod, decide_eq_true_iff]

theorem checksumHolds_iff_add (b0 b1 b2 b3 b4 : Byte) :
    checksumHolds b0 b1 b2 b3 b4 = true ↔ b0 + b1 + b2 + b3 = b4 := by
  rw [checksumHolds_iff, checksumSum_eq_add]

/-- Settles O21: the truncated 10-bit sum is the sum modulo 256, and so is the sum with wrap-around. -/
theorem checksumIsSumModulo256 : Obligations.ChecksumIsSumModulo256 := fun b0 b1 b2 b3 b4 =>
  ⟨checksumHolds_iff_mod b0 b1 b2 b3 b4, checksumHolds_iff_add b0 b1 b2 b3 b4⟩

/-! ### VALIDATE -/

theorem bigEndian_extractLsb'_high (hi lo : Byte) : (bigEndian hi lo).extractLsb' 8 8 = hi :=
  BitVec.extractLsb'_append_eq_left

theorem bigEndian_extractLsb'_low (hi lo : Byte) : (bigEndian hi lo).extractLsb' 0 8 = lo :=
  BitVec.extractLsb'_append_eq_right

/-- The Reading that VALIDATE leaves is that of the buffer it leaves, which it does not write (R153). -/
theorem readingIsOfBuffer_of_exec_validate {s t : State} (h : exec .validate s = .next t) : t.readingIsOfBuffer := by
  cases h
  exact ⟨bigEndian_toNat _ _, bigEndian_toNat _ _, checksumHolds_eq_decide_mod _ _ _ _ _⟩

/-- Settles O20: the next state is read off the meaning, its Reading is that of the buffer, and the selection is VALIDATE's
row. -/
theorem validateWritesReading : Obligations.ValidateWritesReading :=
  ⟨fun _ => ⟨_, rfl, rfl, readingIsOfBuffer_of_exec_validate rfl⟩, State.fetch_validate_iff⟩

/-- Settles O22: both fields are pairs of buffer bytes, and the halves of a pair are its bytes. -/
theorem fieldsAreRepackedBytes : Obligations.FieldsAreRepackedBytes := fun _ =>
  ⟨_, rfl, bigEndian_extractLsb'_high _ _, bigEndian_extractLsb'_low _ _, bigEndian_extractLsb'_high _ _,
    bigEndian_extractLsb'_low _ _⟩

end Sys2Proof.Machine
end

section
/-! Proofs that the step is total (60_exceptions.md R170) but for the reserved code (30_encoding.md R100). -/

namespace Sys2Proof.Machine

/-- Every operation but the reserved one has a next state (R170). -/
theorem exec_total {i : Instr} (h : i ≠ .rsvd3) (s : State) : ∃ t, exec i s = .next t := by
  cases i with
  | rsvd3 => exact absurd rfl h
  | _ => exact ⟨_, rfl⟩

/-- Settles O30: the tick selects an operation in every state, and RSVD3, the one without a next state, only in the
reserved code without `rst`. -/
theorem stepIsTotal : Obligations.StepIsTotal := by
  constructor
  · intro s hs
    obtain ⟨i, hi⟩ := fetch_total s
    rw [step_of_fetch hi]
    refine exec_total (fun hrsvd => ?_) _
    obtain ⟨hrst, hf⟩ := s.fetch_rsvd3_iff.mp (hrsvd ▸ hi)
    simp [hrst, hf] at hs
  · intro s hf hrst
    exact step_of_fetch (s.fetch_rsvd3_iff.mpr ⟨hrst, hf⟩)

end Sys2Proof.Machine
end

section
/-! Facts about any run: the inputs it uses up (00_scope.md R14), and runs without a START. -/

namespace Sys2Proof.Machine

/-- No operation touches the inputs of the coming ticks. -/
theorem exec_pending {i : Instr} {s t : State} (h : exec i s = .next t) : t.pending = s.pending := by
  cases i <;> cases h <;> rfl

theorem step_pending {s t : State} (h : step s = .next t) : t.pending = s.pending.tail := by
  obtain ⟨i, -, hi⟩ := step_next h
  exact exec_pending hi

/-- A run can be cut after its first tick. -/
theorem runTicks_succ_inv {k : Nat} {s t : State} (h : runTicks (k + 1) s = .next t) :
    ∃ u, step s = .next u ∧ runTicks k u = .next t := by
  cases hstep : step s with
  | next u => exact ⟨u, rfl, (runTicks_succ hstep k).symm.trans h⟩
  | fault r => simp [runTicks, hstep] at h
  | refused r => simp [runTicks, hstep] at h

theorem runTicks_pending {k : Nat} {s t : State} (h : runTicks k s = .next t) : t.pending = s.pending.drop k := by
  induction k generalizing s with
  | zero =>
    cases h
    rfl
  | succ k ih =>
    obtain ⟨u, hstep, hrun⟩ := runTicks_succ_inv h
    rw [ih hrun, step_pending hstep, List.drop_tail]

theorem State.fetch_start_of_pending {s : State} {x : Inputs} {rest : List Inputs} (hf : s.fsm = .idle)
    (hp : s.pending = x :: rest) (hx : x.rst = false) (hstart : x.start = true) : s.fetch = .ok .start :=
  s.fetch_start_iff.mpr ⟨s.inputs_rst_of_pending hp hx, hf, by rw [State.inputs_of_pending hp, hstart]⟩

theorem State.fetch_ne_start_of_busy {s : State} (h : s.fsm ≠ .idle) : s.fetch ≠ .ok .start :=
  fun hstart => h (s.fetch_start_iff.mp hstart).2.1

/-- A tick of a busy block is no START (R138). -/
theorem startTicks_succ_of_busy {s t : State} (hf : s.fsm ≠ .idle) (h : step s = .next t) (k : Nat) :
    startTicks (k + 1) s = startTicks k t := by
  rw [startTicks_succ h, if_neg (State.fetch_ne_start_of_busy hf), Nat.zero_add]

/-- No START executes in a run whose ticks all begin in a busy block (R138). -/
theorem startTicks_eq_zero {k : Nat} {s : State} (h : ∀ j < k, ∃ t, runTicks j s = .next t ∧ t.fsm ≠ .idle) :
    startTicks k s = 0 := by
  induction k generalizing s with
  | zero => rfl
  | succ k ih =>
    obtain ⟨_, hrun, hf⟩ := h 0 k.succ_pos
    cases hrun
    cases hstep : step s with
    | next u =>
      rw [startTicks_succ_of_busy hf hstep]
      refine ih fun j hj => ?_
      obtain ⟨t, hrun, ht⟩ := h (j + 1) (Nat.succ_lt_succ hj)
      exact ⟨t, (runTicks_succ hstep j).symm.trans hrun, ht⟩
    | fault r => simp [startTicks, hstep]
    | refused r => simp [startTicks, hstep]

/-- A run that begins with START and whose other ticks all begin in a busy block has that one START. -/
theorem startTicks_eq_one {k : Nat} {s u : State} (hfetch : s.fetch = .ok .start) (hstep : step s = .next u)
    (h : ∀ j, 1 ≤ j → j ≤ k → ∃ t, runTicks j s = .next t ∧ t.fsm ≠ .idle) : startTicks (k + 1) s = 1 := by
  rw [startTicks_succ hstep, if_pos hfetch, startTicks_eq_zero]
  intro j hj
  obtain ⟨t, hrun, ht⟩ := h (j + 1) j.succ_pos hj
  exact ⟨t, (runTicks_succ hstep j).symm.trans hrun, ht⟩

end Sys2Proof.Machine
end

section
/-! The edges of `crit` by the state of the Frame Decoder (60_exceptions.md R175 to R177): a tick with neither `rst` nor
START moves `crit` and `fsm` together. -/

namespace Sys2Proof.Machine

/-- The edges of `crit` of a cycle from its START up to the state `f` of it (R177). -/
def cycleEdges (f : Fsm) : List Bool := if f = .reset then [] else if f = .idle then [true, false] else [true]

theorem cycleEdges_of_inCritical {f : Fsm} (h : f.inCritical = true) : cycleEdges f = [true] := by
  cases f with
  | idle | reset => cases h
  | _ => rfl

/-- The end of a preamble symbol lies in the critical section (R175). -/
theorem State.completePreamble_inCritical {s : State} (hf : s.fsm = .preamble) (c : Byte) :
    s.fsm.inCritical = true ∧ (s.endTick.completePreamble c).fsm.inCritical = true := by
  obtain h | h := s.endTick.completePreamble_fsm_eq_or c <;> simp [h, hf, Fsm.inCritical]

/-- The end of a data symbol lies in the critical section (R175). -/
theorem State.completeData_inCritical {s : State} (hf : s.fsm = .data) (c : Byte) :
    s.fsm.inCritical = true ∧ (s.endTick.completeData c).fsm.inCritical = true := by
  obtain h | h := s.endTick.completeData_fsm_eq_or c <;> simp [h, hf, Fsm.inCritical]

/-- What a tick with neither `rst` nor START can do to `crit`: leave it, with `fsm` unchanged or moving inside the critical
section; else RELEASE opens the section, or DONE closes it (R175, R176). -/
theorem step_crit_cases {s t : State} (hrst : s.inputs.rst = false) (hstart : s.fetch ≠ .ok .start)
    (h : step s = .next t) :
    t.crit = s.crit ∧ (t.fsm = s.fsm ∨ s.fsm.inCritical = true ∧ t.fsm.inCritical = true) ∨
    s.fsm = .reset ∧ t.fsm = .handshake ∧ t.crit = true ∨
    s.fsm = .done ∧ t.fsm = .idle ∧ t.crit = false := by
  obtain ⟨i, hi, h⟩ := step_next h
  cases i with
  | hreset => exact absurd (s.fetch_hreset_iff.mp hi) (by simp [hrst])
  | start => exact absurd hi hstart
  | rsvd3 => cases h
  | nop | rstwait | syncwait | synchit | count =>
    cases h
    exact .inl ⟨rfl, .inl rfl⟩
  | release =>
    cases h
    obtain ⟨-, hf, -⟩ := s.fetch_release_iff.mp hi
    exact .inr (.inl ⟨hf, rfl, rfl⟩)
  | toinput =>
    cases h
    obtain ⟨-, hf⟩ := s.fetch_toinput_iff.mp hi
    exact .inl ⟨rfl, .inr ⟨by rw [hf]; rfl, rfl⟩⟩
  | pendP =>
    cases h
    obtain ⟨-, hf, -⟩ := s.fetch_pendP_iff.mp hi
    exact .inl ⟨rfl, .inr (State.completePreamble_inCritical hf _)⟩
  | ovrP =>
    cases h
    obtain ⟨-, hf, -⟩ := s.fetch_ovrP_iff.mp hi
    exact .inl ⟨rfl, .inr (State.completePreamble_inCritical hf _)⟩
  | pendD =>
    cases h
    obtain ⟨-, hf, -⟩ := s.fetch_pendD_iff.mp hi
    exact .inl ⟨rfl, .inr (State.completeData_inCritical hf _)⟩
  | ovrD =>
    cases h
    obtain ⟨-, hf, -⟩ := s.fetch_ovrD_iff.mp hi
    exact .inl ⟨rfl, .inr (State.completeData_inCritical hf _)⟩
  | validate =>
    cases h
    obtain ⟨-, hf⟩ := s.fetch_validate_iff.mp hi
    exact .inl ⟨rfl, .inr ⟨by rw [hf]; rfl, rfl⟩⟩
  | done =>
    cases h
    obtain ⟨-, hf⟩ := s.fetch_done_iff.mp hi
    exact .inr (.inr ⟨hf, rfl, rfl⟩)

/-- The edge that a tick writes, if any, is the one by which the cycle's edges grow. -/
theorem step_cycleEdges {s t : State} (hcrit : s.crit = s.fsm.inCritical) (hrst : s.inputs.rst = false)
    (hstart : s.fetch ≠ .ok .start) (h : step s = .next t) :
    t.crit = t.fsm.inCritical ∧
      cycleEdges s.fsm ++ (if t.crit = s.crit then [] else [t.crit]) = cycleEdges t.fsm := by
  obtain ⟨hkeep, hf | ⟨hs, ht⟩⟩ | ⟨hs, ht, hrise⟩ | ⟨hs, ht, hfall⟩ := step_crit_cases hrst hstart h
  · simp [hkeep, hcrit, hf]
  · simp [hkeep, hcrit, hs, ht, cycleEdges_of_inCritical]
  · simp [hrise, hcrit, hs, ht, Fsm.inCritical, cycleEdges]
  · simp [hfall, hcrit, hs, ht, Fsm.inCritical, cycleEdges]

/-- Over a run with neither `rst` nor START the cycle's edges grow by those of the run. -/
theorem runTicks_cycleEdges {k : Nat} {s t : State} {l rest : List Inputs} (hcrit : s.crit = s.fsm.inCritical)
    (hp : s.pending = l ++ rest) (hl : NoReset l) (hk : k ≤ l.length) (hrun : runTicks k s = .next t)
    (hno : startTicks k s = 0) : cycleEdges s.fsm ++ critEdges k s = cycleEdges t.fsm := by
  induction k generalizing s l with
  | zero =>
    cases hrun
    exact List.append_nil _
  | succ k ih =>
    obtain ⟨u, hstep, hrun⟩ := runTicks_succ_inv hrun
    obtain _ | ⟨x, l⟩ := l
    · cases hk
    obtain ⟨hx, hl⟩ := List.forall_mem_cons.mp hl
    rw [startTicks_succ hstep, Nat.add_eq_zero_iff] at hno
    obtain ⟨hfirst, hno⟩ := hno
    obtain ⟨hu, hedge⟩ := step_cycleEdges hcrit (s.inputs_rst_of_pending hp hx) (by simpa using hfirst) hstep
    have hup : u.pending = l ++ rest := by rw [step_pending hstep, hp]; rfl
    rw [critEdges_succ hstep, ← List.append_assoc, hedge]
    exact ih hu hup hl (Nat.le_of_succ_le_succ hk) hrun hno

theorem BlockInv.crit_of_idle {s : State} (hs : BlockInv s) (hf : s.fsm = .idle) : s.crit = false := by
  rw [hs.crit_iff, hf]
  rfl

/-- After START of an idle block, and up to the next START, the edges are those of the cycle (R177). -/
theorem critEdges_of_one_start {k : Nat} {s t : State} {x : Inputs} {l rest : List Inputs} (hs : BlockInv s)
    (hf : s.fsm = .idle) (hp : s.pending = x :: (l ++ rest)) (hstart : x.start = true) (hl : NoReset (x :: l))
    (hk : k ≤ l.length) (hrun : runTicks (k + 1) s = .next t) (hone : startTicks (k + 1) s = 1) :
    critEdges (k + 1) s = cycleEdges t.fsm := by
  obtain ⟨hx, hl⟩ := List.forall_mem_cons.mp hl
  obtain ⟨u, hstep, hu, -, -, -, hucrit, hup⟩ := step_start hf hp hx hstart
  have hfetch := State.fetch_start_of_pending hf hp hx hstart
  rw [startTicks_succ hstep, if_pos hfetch, Nat.add_eq_left] at hone
  rw [runTicks_succ hstep] at hrun
  have hedges := runTicks_cycleEdges (by rw [hucrit, hs.crit_of_idle hf, hu]; rfl) hup hl hk hrun hone
  rw [critEdges_succ hstep, if_pos hucrit, ← hedges, hu]
  rfl

/-- The edges of any run alternate from the level before it: an edge is a change. -/
theorem alternates_critEdges (k : Nat) (s : State) : Alternates s.crit (critEdges k s) := by
  induction k generalizing s with
  | zero => trivial
  | succ k ih =>
    cases hstep : step s with
    | next t =>
      rw [critEdges_succ hstep]
      split
      next hkeep => exact hkeep ▸ ih t
      next hedge =>
        have ht : t.crit = !s.crit := Bool.eq_not.mpr hedge
        exact ⟨ht, ht ▸ ih t⟩
    | fault r => simp [critEdges, hstep, Alternates]
    | refused r => simp [critEdges, hstep, Alternates]

end Sys2Proof.Machine
end

section
/-! How a cycle in its sampler states comes to VALIDATE (40_bit_sampler.md R116, 60_exceptions.md R172): each symbol takes
at most 256 high samples. -/

namespace Sys2Proof.Machine

/-- The part of the invariant that the sampler ticks rest on and keep: the block awaits a symbol of PREAMBLE or DATA
(R45 (c)), and a count in progress is below the ceiling (R45 (d)). -/
structure State.InSampler (s : State) : Prop where
  awaits : s.fsm = .preamble ∧ s.symidx.toNat ≤ 1 ∨ s.fsm = .data ∧ 2 ≤ s.symidx.toNat ∧ s.symidx.toNat ≤ 41
  cnt_below_ceiling : s.ph = .measure → s.cnt.toNat ≤ 254

/-- The invariant of the reachable states holds it in the two sampler states. -/
theorem BlockInv.inSampler {s : State} (hs : BlockInv s) (hf : s.fsm = .preamble ∨ s.fsm = .data) : s.InSampler := by
  refine ⟨?_, hs.cnt_below_ceiling⟩
  have hfit := hs.symidx_fits
  obtain hf | hf := hf
  · simp only [hf, symidxFits, Bool.or_eq_true, decide_eq_true_eq] at hfit
    refine .inl ⟨hf, ?_⟩
    obtain h | h := hfit <;> simp [h]
  · simp only [hf, symidxFits, Bool.and_eq_true, decide_eq_true_eq] at hfit
    exact .inr ⟨hf, hfit⟩

theorem State.InSampler.fsm_eq_or {s : State} (hs : s.InSampler) : s.fsm = .preamble ∨ s.fsm = .data :=
  hs.awaits.imp And.left And.left

theorem State.InSampler.symidx_le {s : State} (hs : s.InSampler) : s.symidx.toNat ≤ 41 := by
  have hidx := hs.awaits
  omega

theorem State.InSampler.symidx_succ {s : State} (hs : s.InSampler) : (s.symidx + 1).toNat = s.symidx.toNat + 1 := by
  have hidx := hs.symidx_le
  rw [BitVec.toNat_add, show (1 : SymIdx).toNat = 1 from rfl]
  omega

/-! ### The end of a symbol -/

/-- After a preamble symbol there is a next symbol: of the preamble, or the first of the data (R135). -/
theorem State.InSampler.completePreamble {s : State} (hs : s.InSampler) (hf : s.fsm = .preamble) (c : Byte) :
    (s.endTick.completePreamble c).InSampler := by
  refine ⟨?_, nofun⟩
  have hidx : (s.endTick.completePreamble c).symidx.toNat = s.symidx.toNat + 1 := hs.symidx_succ
  by_cases hlast : s.symidx = 1
  · have h1 : s.symidx.toNat = 1 := by rw [hlast]; rfl
    exact .inr ⟨if_pos hlast, by omega, by omega⟩
  · have h0 : s.symidx.toNat = 0 := by
      have hne : s.symidx.toNat ≠ 1 := fun h => hlast (BitVec.eq_of_toNat_eq h)
      have hfit := hs.awaits
      simp only [hf, true_and, reduceCtorEq, false_and, or_false] at hfit
      omega
    exact .inl ⟨(if_neg hlast).trans hf, by omega⟩

/-- A data symbol that ends is the last one, or there is a next one (R151). -/
theorem State.InSampler.completeData {s : State} (hs : s.InSampler) (hf : s.fsm = .data) (c : Byte) :
    (s.endTick.completeData c).fsm = .validate ∨ (s.endTick.completeData c).InSampler := by
  have hidx : (s.endTick.completeData c).symidx.toNat = s.symidx.toNat + 1 := hs.symidx_succ
  by_cases hlast : s.symidx = 41
  · exact .inl (if_pos hlast)
  · have hne : s.symidx.toNat ≠ 41 := fun h => hlast (BitVec.eq_of_toNat_eq h)
    have hfit := hs.awaits
    simp only [hf, true_and, reduceCtorEq, false_and, false_or] at hfit
    exact .inr ⟨.inr ⟨(if_neg hlast).trans hf, by omega, by omega⟩, nofun⟩

/-- A low sample or the ceiling ends the symbol of a measure phase (R112, R113). -/
theorem State.InSampler.step_ends_symbol {s : State} (hs : s.InSampler) (hrst : s.inputs.rst = false)
    (hp : s.ph = .measure) (hend : s.inputs.pin = false ∨ s.inputs.pin = true ∧ 254 ≤ s.cnt.toNat) :
    ∃ t, step s = .next t ∧ t.ph = .sync ∧ t.symidx = s.symidx + 1 ∧ (t.fsm = .validate ∨ t.InSampler) := by
  obtain hf | hf := hs.fsm_eq_or
  · have hnext := hs.completePreamble hf
    obtain hpin | ⟨hpin, hcnt⟩ := hend
    · exact ⟨_, step_of_fetch (s.fetch_pendP_iff.mpr ⟨hrst, hf, hp, hpin⟩), rfl, rfl, .inr (hnext _)⟩
    · exact ⟨_, step_of_fetch (s.fetch_ovrP_iff.mpr ⟨hrst, hf, hp, hpin, hcnt⟩), rfl, rfl, .inr (hnext _)⟩
  · have hnext := hs.completeData hf
    obtain hpin | ⟨hpin, hcnt⟩ := hend
    · exact ⟨_, step_of_fetch (s.fetch_pendD_iff.mpr ⟨hrst, hf, hp, hpin⟩), rfl, rfl, hnext _⟩
    · exact ⟨_, step_of_fetch (s.fetch_ovrD_iff.mpr ⟨hrst, hf, hp, hpin, hcnt⟩), rfl, rfl, hnext _⟩

/-! ### The high samples of the frame -/

/-- High samples that are enough to end the frame: 256 for each symbol still to come, less the sync hit and the samples
counted of the present one (R80, R116). -/
def State.highsToGo (s : State) : Nat :=
  256 * (42 - s.symidx.toNat) - if s.ph = .measure then s.cnt.toNat + 1 else 0

theorem State.highsToGo_of_sync {s : State} (hp : s.ph = .sync) : s.highsToGo = 256 * (42 - s.symidx.toNat) := by
  simp [State.highsToGo, hp]

theorem State.highsToGo_of_measure {s : State} (hp : s.ph = .measure) :
    s.highsToGo = 256 * (42 - s.symidx.toNat) - (s.cnt.toNat + 1) := by
  simp [State.highsToGo, hp]

theorem State.InSampler.highsToGo_pos {s : State} (hs : s.InSampler) : 0 < s.highsToGo := by
  have hidx := hs.symidx_le
  cases hp : s.ph with
  | sync =>
    rw [State.highsToGo_of_sync hp]
    omega
  | measure =>
    have hcnt := hs.cnt_below_ceiling hp
    rw [State.highsToGo_of_measure hp]
    omega

/-- A sampler tick ends the frame, or it stays in the sampler and a high sample brings the end one nearer, whatever the
sample is for. -/
theorem State.InSampler.step_highsToGo {s : State} (hs : s.InSampler) (hrst : s.inputs.rst = false) :
    ∃ t, step s = .next t ∧
      (t.fsm = .validate ∨ t.InSampler ∧ t.highsToGo + s.inputs.pin.toNat ≤ s.highsToGo) := by
  have hidx := hs.symidx_le
  have hf := hs.fsm_eq_or
  cases hp : s.ph with
  | sync =>
    cases hpin : s.inputs.pin with
    | false =>
      have hfetch := s.fetch_syncwait_iff.mpr ((s.isSyncWord_selector_iff false).mpr ⟨hrst, hf, hp, hpin⟩)
      exact ⟨s.endTick, step_of_fetch hfetch, .inr ⟨⟨hs.awaits, hs.cnt_below_ceiling⟩, le_refl _⟩⟩
    | true =>
      have hfetch := s.fetch_synchit_iff.mpr ((s.isSyncWord_selector_iff true).mpr ⟨hrst, hf, hp, hpin⟩)
      refine ⟨_, step_of_fetch hfetch, .inr ⟨⟨hs.awaits, fun _ => Nat.zero_le _⟩, ?_⟩⟩
      rw [State.highsToGo_of_sync hp, State.highsToGo_of_measure rfl]
      show 256 * (42 - s.symidx.toNat) - 1 + 1 ≤ _
      omega
  | measure =>
    have hcnt := hs.cnt_below_ceiling hp
    by_cases hend : s.inputs.pin = false ∨ s.inputs.pin = true ∧ 254 ≤ s.cnt.toNat
    · obtain ⟨t, hstep, htp, htidx, ht⟩ := hs.step_ends_symbol hrst hp hend
      refine ⟨t, hstep, ht.imp_right fun ht => ⟨ht, ?_⟩⟩
      rw [State.highsToGo_of_measure hp, State.highsToGo_of_sync htp, htidx, hs.symidx_succ]
      obtain hpin | ⟨hpin, hceil⟩ := hend
      · simp only [hpin, Bool.toNat_false]
        omega
      · simp only [hpin, Bool.toNat_true]
        omega
    · obtain ⟨hpin, hlt⟩ : s.inputs.pin = true ∧ s.cnt.toNat ≤ 253 := by
        simp only [not_or, Bool.not_eq_false, not_and, not_le] at hend
        exact ⟨hend.1, Nat.le_of_lt_succ (hend.2 hend.1)⟩
      have hadd : (s.cnt + 1).toNat = s.cnt.toNat + 1 := by
        rw [BitVec.toNat_add, show (1 : Byte).toNat = 1 from rfl]
        omega
      refine ⟨_, step_of_fetch (s.fetch_count_iff.mpr ⟨hrst, hf, hp, hpin, hlt⟩),
        .inr ⟨⟨hs.awaits, fun _ => ?_⟩, ?_⟩⟩
      · exact hadd.trans_le (Nat.succ_le_succ hlt)
      · rw [State.highsToGo_of_measure hp, State.highsToGo_of_measure (s := { s.endTick with cnt := _ }) hp, hpin]
        show 256 * (42 - s.symidx.toNat) - ((s.cnt + 1).toNat + 1) + 1 ≤ _
        omega

/-- A cycle in its sampler reaches VALIDATE once the line has been high in enough ticks, with no START on the way (R116,
R172). -/
theorem State.InSampler.runTicks_validate {s : State} {l rest : List Inputs} (hs : s.InSampler)
    (hp : s.pending = l ++ rest) (hl : NoReset l) (hhigh : s.highsToGo ≤ (l.filter Inputs.pin).length) :
    ∃ k t, k ≤ l.length ∧ runTicks k s = .next t ∧ t.fsm = .validate ∧ startTicks k s = 0 := by
  induction l generalizing s with
  | nil => exact absurd hs.highsToGo_pos (Nat.not_lt.mpr hhigh)
  | cons x l ih =>
    obtain ⟨hx, hl⟩ := List.forall_mem_cons.mp hl
    have hbusy : s.fsm ≠ .idle := by obtain hf | hf := hs.fsm_eq_or <;> simp [hf]
    obtain ⟨t, hstep, ht⟩ := hs.step_highsToGo (s.inputs_rst_of_pending hp hx)
    obtain ht | ⟨ht, hfewer⟩ := ht
    · exact ⟨1, t, Nat.succ_pos _, runTicks_one hstep, ht, startTicks_succ_of_busy hbusy hstep 0⟩
    have hcount : ((x :: l).filter Inputs.pin).length = (l.filter Inputs.pin).length + x.pin.toNat := by
      cases hpin : x.pin <;> simp [hpin]
    rw [State.inputs_of_pending hp] at hfewer
    have htp : t.pending = l ++ rest := by rw [step_pending hstep, hp]; rfl
    obtain ⟨k, u, hk, hrun, hu, hno⟩ := ih ht htp hl (by omega)
    exact ⟨k + 1, u, Nat.succ_le_succ hk, (runTicks_succ hstep k).trans hrun, hu,
      (startTicks_succ_of_busy hbusy hstep k).trans hno⟩

end Sys2Proof.Machine
end

section
/-! Proofs about the balance of the critical section over a run (60_exceptions.md R177). -/

namespace Sys2Proof.Machine

/-! ### Runs of the cycle's parts -/

/-- START with the ticks of the reset pulse but the last: RELEASE is next. -/
theorem runTicks_to_release {s : State} {l rest : List Inputs} (hf : s.fsm = .reset) (hpos : 1 ≤ s.rstCnt)
    (hp : s.pending = l ++ rest) (hl : NoReset l) (hlen : l.length = s.rstCnt) :
    ∃ t, runTicks (s.rstCnt - 1) s = .next t ∧ t.fetch = .ok .release := by
  obtain rfl | ⟨l, x, rfl⟩ := l.eq_nil_or_concat'
  · simp only [List.length_nil] at hlen
    omega
  rw [List.length_append, List.length_singleton] at hlen
  obtain ⟨hl, hx⟩ := List.forall_mem_append.mp hl
  have hwait := runTicks_rstwait hf (by omega) (by rw [hp, List.append_assoc]) hl
  rw [← hlen, Nat.add_sub_cancel]
  refine ⟨_, hwait, (State.fetch_release_iff _).mpr ⟨?_, hf, by simp only; omega⟩⟩
  exact State.inputs_rst_of_pending rfl (hx x (List.mem_singleton_self x))

theorem step_syncwait {s : State} {x : Inputs} {rest : List Inputs} (hf : s.fsm = .preamble ∨ s.fsm = .data)
    (hph : s.ph = .sync) (hp : s.pending = x :: rest) (hx : x.rst = false) (hlow : x.pin = false) :
    step s = .next { s with pending := rest, tick := s.tick + 1 } :=
  step_of_fetch_pending hp (s.fetch_syncwait_iff.mpr ((s.isSyncWord_selector_iff false).mpr
    ⟨s.inputs_rst_of_pending hp hx, hf, hph, by rw [State.inputs_of_pending hp, hlow]⟩))

/-- On a line that stays low the sync phase waits, and no register changes (R110, R118). -/
theorem runTicks_syncwait {s : State} {l rest : List Inputs} (hf : s.fsm = .preamble ∨ s.fsm = .data)
    (hph : s.ph = .sync) (hp : s.pending = l ++ rest) (hl : NoReset l) (hlow : ∀ x ∈ l, x.pin = false) :
    runTicks l.length s = .next { s with pending := rest, tick := s.tick + l.length } := by
  induction l generalizing s with
  | nil =>
    cases hp
    rfl
  | cons x l ih =>
    obtain ⟨hx, hl⟩ := List.forall_mem_cons.mp hl
    obtain ⟨hxlow, hlow⟩ := List.forall_mem_cons.mp hlow
    have hrun := ih (s := { s with pending := l ++ rest, tick := s.tick + 1 }) hf hph rfl hl hlow
    rw [List.length_cons, runTicks_succ (step_syncwait (rest := l ++ rest) hf hph hp hx hxlow), hrun]
    simp only [Nat.add_assoc, Nat.add_comm 1]

/-- The waiting writes no edge (R178). -/
theorem critEdges_syncwait {s : State} {l rest : List Inputs} (hf : s.fsm = .preamble ∨ s.fsm = .data)
    (hph : s.ph = .sync) (hp : s.pending = l ++ rest) (hl : NoReset l) (hlow : ∀ x ∈ l, x.pin = false) :
    critEdges l.length s = [] := by
  induction l generalizing s with
  | nil => rfl
  | cons x l ih =>
    obtain ⟨hx, hl⟩ := List.forall_mem_cons.mp hl
    obtain ⟨hxlow, hlow⟩ := List.forall_mem_cons.mp hlow
    have hedges := ih (s := { s with pending := l ++ rest, tick := s.tick + 1 }) hf hph rfl hl hlow
    rw [List.length_cons, critEdges_succ (step_syncwait (rest := l ++ rest) hf hph hp hx hxlow), if_pos rfl, hedges]
    rfl

/-- VALIDATE and DONE end the cycle (R137, R153). -/
theorem runTicks_validate_done {s : State} {l rest : List Inputs} (hf : s.fsm = .validate)
    (hp : s.pending = l ++ rest) (hl : NoReset l) (hlen : 2 ≤ l.length) :
    ∃ t, runTicks 2 s = .next t ∧ t.fsm = .idle ∧ startTicks 2 s = 0 := by
  obtain _ | ⟨x, _ | ⟨y, l⟩⟩ := l
  · simp at hlen
  · simp at hlen
  obtain ⟨hx, hl⟩ := List.forall_mem_cons.mp hl
  obtain ⟨hy, -⟩ := List.forall_mem_cons.mp hl
  have hvalidate := s.fetch_validate_iff.mpr ⟨s.inputs_rst_of_pending hp hx, hf⟩
  obtain ⟨t, hstep, ht, htp⟩ : ∃ t, step s = .next t ∧ t.fsm = .done ∧ t.pending = y :: (l ++ rest) :=
    ⟨_, step_of_fetch_pending hp hvalidate, rfl, rfl⟩
  have hdone := t.fetch_done_iff.mpr ⟨t.inputs_rst_of_pending htp hy, ht⟩
  obtain ⟨u, hstep', hu⟩ : ∃ u, step t = .next u ∧ u.fsm = .idle := ⟨_, step_of_fetch_pending htp hdone, rfl⟩
  refine ⟨u, (runTicks_succ hstep 1).trans (runTicks_one hstep'), hu, ?_⟩
  rw [startTicks_succ_of_busy (by simp [hf]) hstep, startTicks_succ_of_busy (by simp [ht]) hstep']
  rfl

/-! ### The clauses of the balance -/

section

variable {s : State} {x : Inputs} {rest : List Inputs} (hs : BlockInv s) (hf : s.fsm = .idle) (hstart : x.start = true)
include hs hf hstart

/-- RELEASE comes `RESET_TICKS` ticks after START, and writes the first edge (R175, R177). -/
theorem critEdges_release {l : List Inputs} (hp : s.pending = x :: (l ++ rest)) (hl : NoReset (x :: l))
    (hlen : l.length = s.params.resetTicks) :
    (∃ t, runTicks s.params.resetTicks s = .next t ∧ t.fetch = .ok .release) ∧
    critEdges s.params.resetTicks s = [] ∧ critEdges (s.params.resetTicks + 1) s = [true] := by
  obtain ⟨hx, hl'⟩ := List.forall_mem_cons.mp hl
  obtain ⟨u, hstep, hu, hcnt, -, -, -, hup⟩ := step_start hf hp hx hstart
  have hfetch := State.fetch_start_of_pending hf hp hx hstart
  have hpos : 1 ≤ u.rstCnt := hcnt ▸ hs.legal
  rw [← hcnt] at hlen ⊢
  obtain ⟨t, hrun, ht⟩ := runTicks_to_release hu hpos hup hl' hlen
  have hrelease := runTicks_release hu hpos hup hl' hlen
  have hbusy : ∀ j, 1 ≤ j → j ≤ u.rstCnt → ∃ t, runTicks j s = .next t ∧ t.fsm ≠ .idle := by
    intro j hj hj'
    obtain ⟨v, hv, hvf, -⟩ := runTicks_in_reset hu hup hl' hlen.ge (k := j - 1) (by omega)
    rw [← runTicks_succ hstep, Nat.sub_add_cancel hj] at hv
    exact ⟨v, hv, by simp [hvf]⟩
  refine ⟨⟨t, ?_, ht⟩, ?_, ?_⟩
  · rw [← Nat.sub_add_cancel hpos, runTicks_succ hstep, hrun]
  · obtain ⟨k, hk⟩ := Nat.exists_eq_add_of_le' hpos
    rw [hk] at hrun hlen hbusy ⊢
    rw [critEdges_of_one_start hs hf hp hstart hl (by omega) ((runTicks_succ hstep k).trans hrun)
      (startTicks_eq_one hfetch hstep fun j hj hj' => hbusy j hj (by omega)), (t.fetch_release_iff.mp ht).2.1]
    rfl
  · rw [critEdges_of_one_start hs hf hp hstart hl hlen.ge ((runTicks_succ hstep _).trans hrelease)
      (startTicks_eq_one hfetch hstep hbusy)]
    rfl

/-- START, the reset pulse and the handshake lead to the sampler, with the whole frame to come (R144). -/
theorem runTicks_to_sampler {l : List Inputs} (hp : s.pending = x :: (l ++ rest)) (hl : NoReset (x :: l))
    (hlen : l.length = s.params.resetTicks + 1) :
    ∃ t, runTicks (s.params.resetTicks + 2) s = .next t ∧ t.InSampler ∧ t.highsToGo = 256 * 42 ∧ t.pending = rest ∧
      startTicks (s.params.resetTicks + 2) s = 1 := by
  obtain ⟨hx, hl⟩ := List.forall_mem_cons.mp hl
  obtain ⟨hreset, ⟨h, hrunh, hh, -⟩, t, hrun, ht, -, -, htp⟩ :=
    resetPulseWaveform.2 s x l rest hs.legal hf (hs.crit_of_idle hf) hp hx hstart hl hlen
  obtain ⟨htf, htph, htidx⟩ : t.fsm = .preamble ∧ t.ph = .sync ∧ t.symidx = 0 := by
    simpa only [State.position, Prod.mk.injEq] using ht
  refine ⟨t, hrun, ⟨.inl ⟨htf, by simp [htidx]⟩, by simp [htph]⟩, ?_, htp, ?_⟩
  · rw [State.highsToGo_of_sync htph, htidx]
    rfl
  · obtain ⟨u, hstep, -⟩ := step_start hf hp hx hstart
    refine startTicks_eq_one (State.fetch_start_of_pending hf hp hx hstart) hstep fun j hj hj' => ?_
    obtain hlt | rfl := Nat.le_succ_iff.mp hj'
    · obtain ⟨v, hrunv, hv, -⟩ := hreset j hj hlt
      exact ⟨v, hrunv, by simp [hv]⟩
    · exact ⟨h, hrunh, by simp [hh]⟩

/-- A line that is high often enough after the handshake ends the cycle, with both edges written (R172, R177). -/
theorem critEdges_of_high_line {handshake l tail : List Inputs}
    (hp : s.pending = x :: (handshake ++ l ++ tail) ++ rest) (hl : NoReset (x :: (handshake ++ l ++ tail)))
    (hlen : handshake.length = s.params.resetTicks + 1) (hhigh : 256 * 42 ≤ (l.filter Inputs.pin).length)
    (htail : tail.length = 2) :
    ∃ n t, n ≤ s.params.resetTicks + 4 + l.length ∧ runTicks n s = .next t ∧ t.fsm = .idle ∧
      startTicks n s = 1 ∧ critEdges n s = [true, false] := by
  have hall := hl
  simp only [NoReset, List.forall_mem_cons, List.forall_mem_append] at hall
  obtain ⟨hx, ⟨hlhand, hll⟩, hltail⟩ := hall
  obtain ⟨t, hrunt, ht, hgo, htp, hone⟩ := runTicks_to_sampler (rest := l ++ tail ++ rest) hs hf hstart (by simp [hp])
    (List.forall_mem_cons.mpr ⟨hx, hlhand⟩) hlen
  obtain ⟨k, u, hk, hrunu, hu, hnou⟩ := ht.runTicks_validate (rest := tail ++ rest) (by simp [htp]) hll
    (hgo.trans_le hhigh)
  have hup : u.pending = (l.drop k ++ tail) ++ rest := by
    rw [runTicks_pending hrunu, htp, List.append_assoc, List.drop_append_of_le_length hk, List.append_assoc]
  obtain ⟨v, hrunv, hv, hnov⟩ := runTicks_validate_done hu hup
    (List.forall_mem_append.mpr ⟨fun y hy => hll y (List.mem_of_mem_drop hy), hltail⟩) (by simp [htail])
  have hrun : runTicks (s.params.resetTicks + 2 + (k + 2)) s = .next v := by
    rw [runTicks_add hrunt, runTicks_add hrunu, hrunv]
  have hone' : startTicks (s.params.resetTicks + 2 + (k + 2)) s = 1 := by
    rw [startTicks_add hrunt, startTicks_add hrunu, hone, hnou, hnov]
  have hedges := critEdges_of_one_start (k := s.params.resetTicks + 2 + (k + 1)) hs hf hp hstart hl
    (by simp only [List.length_append]; omega) hrun hone'
  rw [hv] at hedges
  exact ⟨_, v, by omega, hrun, hv, hone', hedges⟩

end

/-- Settles O56: edges are changes, so they alternate; a tick moves `crit` and `fsm` together, so that a cycle's edges up
to a state are the `cycleEdges` of that state; and each clause names the state its run comes to. -/
theorem criticalSectionIsBalanced : Obligations.CriticalSectionIsBalanced := by
  refine ⟨alternates_critEdges, rfl, ?_, ?_, ?_, ?_⟩
  · intro s t x l rest hs hf hp hstart hl hrun hone
    exact critEdges_of_one_start hs hf hp hstart hl le_rfl hrun hone
  · intro s x l rest hs hf hp hstart hl hlen
    exact critEdges_release hs hf hstart hp hl hlen
  · intro s x handshake l tail rest hs hf hp hstart hl hlen hhigh htail
    exact critEdges_of_high_line hs hf hstart hp hl hlen hhigh htail
  · intro s l rest hs hf hph hp hl hlow
    refine ⟨_, runTicks_syncwait hf hph hp hl hlow, ?_, critEdges_syncwait hf hph hp hl hlow⟩
    show s.crit = true
    rw [hs.crit_iff]
    obtain hf | hf := hf <;> rw [hf] <;> rfl

end Sys2Proof.Machine
end

section
/-! Proofs about HRESET (70_reset_and_hazards.md R200). -/

namespace Sys2Proof.Machine

/-- Settles O3: the meaning has one answer for every state, with an empty buffer, and with `Diag.cleared` where there are
diagnostic registers; bit 7 of the selector word alone selects it. -/
theorem hresetWritesEveryRegister : Obligations.HresetWritesEveryRegister := by
  refine ⟨fun s => ⟨_, rfl, rfl, ?cleared, ?diag⟩, State.fetch_hreset_iff⟩
  case cleared => exact Memory.read_nil
  case diag => exact diagCleared_of_map s.clearCycle_diag

end Sys2Proof.Machine
end

section
/-! Proofs about the end of a symbol: what `Complete` records and what reaches the Frame Buffer (40_bit_sampler.md R112,
R113; 41_frame_decoder.md R135, R136; 42_assembly_checksum.md R150 to R152). -/

namespace Sys2Proof.Machine

/-! ### The record and the shift -/

/-- Diagnostic registers that all take a record are the diagnostic part of `Complete` (R113). -/
theorem diagRecorded_of_map {s t : State} {c : Byte} {k : Nat} (h : t.diag = s.diag.map fun d => d.record c k) :
    DiagRecorded s t c := by
  unfold DiagRecorded
  rw [h]
  cases s.diag with
  | none => trivial
  | some d =>
    refine ⟨d.record_scnt c k, fun hlt => ⟨?_, fun a ha => ?_⟩⟩
    · rw [d.record_read c k hlt, if_pos rfl]
    · rw [d.record_read c k hlt, if_neg ha]

/-- The end of a data symbol shifts its classification into the awaited byte, and into no other (R150, R151). -/
theorem State.completeData_read (s : State) (c : Byte) (h : 2 ≤ s.symidx.toNat) (h' : s.symidx.toNat ≤ 41) (a : Nat) :
    (s.completeData c).buf.read a =
      if a = (s.symidx.toNat - 2) / 8 then shiftByte (s.buf.read a) (classify s.params.threshold c)
      else s.buf.read a := by
  rw [← bufIndex_eq h]
  exact (s.complete c).shiftIn_read _ h h' a

theorem State.completeData_bufShifted (s : State) (c : Byte) :
    BufShifted s (s.completeData c) (classify s.params.threshold c) := by
  intro h h'
  have hread := s.completeData_read c h h'
  rw [← bufIndex_eq h] at hread
  refine ⟨bufIndex_eq h, ?_, fun a ha => ?_⟩
  · rw [hread, if_pos rfl, shiftByte_toNat]
  · rw [hread, if_neg ha]

/-! ### The operations -/

/-- Settles O10: the next state is read off the meaning, and the diagnostic registers take the record of `cnt`. -/
theorem pendPDiscardsPreambleSymbol : Obligations.PendPDiscardsPreambleSymbol :=
  ⟨fun _ => ⟨_, rfl, rfl, diagRecorded_of_map rfl⟩, State.fetch_pendP_iff⟩

/-- Settles O11: as PEND.P, with the record of the ceiling. -/
theorem ovrPDiscardsPreambleSymbol : Obligations.OvrPDiscardsPreambleSymbol :=
  ⟨fun _ => ⟨_, rfl, rfl, diagRecorded_of_map rfl⟩, State.fetch_ovrP_iff⟩

/-- Settles O18: the next state is read off the meaning; the symbol shifted in is the comparison that `classify` makes. -/
theorem pendDShiftsSymbolIn : Obligations.PendDShiftsSymbolIn :=
  ⟨fun s => ⟨_, rfl, rfl, s.completeData_bufShifted s.cnt, diagRecorded_of_map rfl⟩, State.fetch_pendD_iff⟩

/-- Settles O19: as PEND.D with the ceiling, which is long for every threshold. -/
theorem ovrDShiftsOneIn : Obligations.OvrDShiftsOneIn := by
  refine ⟨fun s => ⟨_, rfl, rfl, ?_, diagRecorded_of_map rfl⟩, State.fetch_ovrD_iff⟩
  have hshift := s.completeData_bufShifted Config.ceiling
  rwa [classify_ceiling] at hshift

theorem cnt_succ_toNat {c : Byte} (h : c.toNat ≤ 254) : (c + 1).toNat = c.toNat + 1 := by
  rw [BitVec.toNat_add, show (1 : Byte).toNat = 1 from rfl]
  omega

/-- Settles O16: the meaning adds one; at 253 or less the sum is below the width's end; the selection is COUNT's row. -/
theorem countAddsOne : Obligations.CountAddsOne :=
  ⟨fun _ => rfl, fun _ h => cnt_succ_toNat (h.trans (by decide)), State.fetch_count_iff⟩

end Sys2Proof.Machine
end

section
/-! Proofs that the invariant of the reachable states (10_state.md R45) holds after reset and HRESET and is kept by every
step, hence by every run. -/

namespace Sys2Proof.Machine

/-! ### The base case -/

/-- A state whose cycle is cleared, in an idle block or before the first data symbol, with the pad, `crit` and the
reset-pulse count as R45 (e) to (g) bind them. -/
structure State.Cleared (s : State) : Prop where
  legal : s.params.Legal
  fsm_before_data : s.fsm = .idle ∨ s.fsm.bufferFresh = true
  ph_sync : s.ph = .sync
  symidx_zero : s.symidx = 0
  buf_empty : s.buf = []
  diag_cleared : ∀ d ∈ s.diag, d = Diag.cleared
  crit_iff : s.crit = s.fsm.inCritical
  pinOe_iff : s.pinOe = (decide (s.fsm = .reset) || decide (s.fsm = .handshake))
  pinOut_iff : s.pinOut = decide (s.fsm ≠ .reset)
  rstCnt_in_reset : s.fsm = .reset → 1 ≤ s.rstCnt ∧ s.rstCnt ≤ s.params.resetTicks
  rstCnt_elsewhere : s.fsm ≠ .reset → s.rstCnt = 0

theorem State.Cleared.blockInv {s : State} (hs : s.Cleared) : BlockInv s := by
  have hf := hs.fsm_before_data
  have hph : s.ph ≠ .measure := by simp [hs.ph_sync]
  have hread (a : Nat) : s.buf.read a = 0 := by rw [hs.buf_empty, Memory.read_nil]
  exact {
    legal := hs.legal
    fsm_not_reserved := fun h => by simp [h, Fsm.bufferFresh] at hf
    measure_in_sampler := fun h => absurd h hph
    symidx_fits := by
      rw [hs.symidx_zero]
      cases hfsm : s.fsm with
      | idle | reset | handshake | preamble => rfl
      | reserved3 | data | validate | done => simp [hfsm, Fsm.bufferFresh] at hf
    cnt_below_ceiling := fun h => absurd h hph
    crit_iff := hs.crit_iff
    pinOe_iff := hs.pinOe_iff
    pinOut_iff := hs.pinOut_iff
    rstCnt_in_reset := hs.rstCnt_in_reset
    rstCnt_elsewhere := hs.rstCnt_elsewhere
    buf_fresh := fun _ a _ => hread a
    buf_filling := fun h => by simp [h, Fsm.bufferFresh] at hf
    scnt_is_symidx := fun d hd => by rw [hs.diag_cleared d hd, hs.symidx_zero, Diag.cleared_scnt]
    trace_unwritten := fun d hd a _ _ => by rw [hs.diag_cleared d hd, Diag.cleared_trace, Memory.read_nil]
    buf_wf := hs.buf_empty ▸ Memory.wf_nil _
    trace_wf := fun d hd => hs.diag_cleared d hd ▸ Memory.wf_nil _ }

theorem eq_cleared_of_mem_map {o : Option Diag} : ∀ d ∈ o.map fun _ => Diag.cleared, d = Diag.cleared := by
  intro d hd
  obtain ⟨_, -, rfl⟩ := Option.mem_map.mp hd
  rfl

theorem State.reset_cleared : State.reset.Cleared where
  legal := Nat.succ_pos _
  fsm_before_data := .inl rfl
  ph_sync := rfl
  symidx_zero := rfl
  buf_empty := rfl
  diag_cleared d hd := by
    cases h : Config.diag with
    | false => simp [State.reset_diag_of_not_diag h] at hd
    | true => simpa [State.reset_diag_of_diag h] using hd.symm
  crit_iff := rfl
  pinOe_iff := rfl
  pinOut_iff := rfl
  rstCnt_in_reset := nofun
  rstCnt_elsewhere _ := rfl

theorem cleared_of_exec_hreset {s t : State} (hlegal : s.params.Legal) (h : exec .hreset s = .next t) : t.Cleared := by
  cases h
  exact {
    legal := hlegal, fsm_before_data := .inl rfl, ph_sync := rfl, symidx_zero := rfl, buf_empty := rfl
    diag_cleared := eq_cleared_of_mem_map, crit_iff := rfl, pinOe_iff := rfl, pinOut_iff := rfl
    rstCnt_in_reset := nofun, rstCnt_elsewhere := fun _ => rfl }

/-- START does not touch `crit`, which is 0 in an idle block of the invariant (R131, R45 (e)). -/
theorem cleared_of_exec_start {s t : State} (hlegal : s.params.Legal) (hcrit : s.crit = false)
    (h : exec .start s = .next t) : t.Cleared := by
  cases h
  exact {
    legal := hlegal, fsm_before_data := .inr rfl, ph_sync := rfl, symidx_zero := rfl, buf_empty := rfl
    diag_cleared := eq_cleared_of_mem_map, crit_iff := hcrit, pinOe_iff := rfl, pinOut_iff := rfl
    rstCnt_in_reset := fun _ => ⟨hlegal, le_refl _⟩, rstCnt_elsewhere := fun hne => absurd rfl hne }

/-- With at most the two preamble symbols taken, no bit of the Frame Buffer is a data symbol's. -/
theorem assemblyInv_of_symidx_le {s : State} (h : s.symidx.toNat ≤ 2) : AssemblyInv s := by
  intro d _ j _ hj
  omega

theorem State.readingReady_iff (s : State) : s.readingReady = true ↔ s.fsm = .done ∨ s.fsm = .idle ∧ s.valid = true := by
  simp [State.readingReady, State.done, State.busy]

/-- A Reading that the host may not sample is no matter (R70). -/
theorem readingInv_of_not_ready {s : State} (hdone : s.fsm ≠ .done) (hidle : s.fsm = .idle → s.valid = false) :
    ReadingInv s := by
  intro h
  obtain hf | ⟨hf, hv⟩ := s.readingReady_iff.mp h
  · exact absurd hf hdone
  · exact absurd (hidle hf) (by simp [hv])

theorem State.Cleared.assemblyInv {s : State} (hs : s.Cleared) : AssemblyInv s :=
  assemblyInv_of_symidx_le (by simp [hs.symidx_zero])

/-- Settles O2: reset clears the cycle, and `valid` is 0. -/
theorem resetMeetsInvariants : Obligations.ResetMeetsInvariants :=
  ⟨State.reset_cleared.blockInv, State.reset_cleared.assemblyInv, readingInv_of_not_ready nofun fun _ => rfl⟩

/-- Settles O4: HRESET clears the cycle from any state, and `valid` with it. -/
theorem hresetEstablishesInvariants : Obligations.HresetEstablishesInvariants := by
  intro s hlegal
  have hs := cleared_of_exec_hreset (s := s) hlegal rfl
  exact ⟨_, rfl, hs.blockInv, hs.assemblyInv, readingInv_of_not_ready nofun fun _ => rfl⟩

/-! ### Operations that complete no symbol -/

/-- The invariant reads no field of the model's own, so the end of a tick keeps it. -/
theorem BlockInv.endTick {s : State} (hs : BlockInv s) : BlockInv s.endTick := { hs with }

section

variable {s t : State} (hs : BlockInv s)
include hs

theorem BlockInv.symidx_of_data (hf : s.fsm = .data) : 2 ≤ s.symidx.toNat ∧ s.symidx.toNat ≤ 41 := by
  have hfit := hs.symidx_fits
  simpa only [hf, symidxFits, Bool.and_eq_true, decide_eq_true_eq] using hfit

theorem BlockInv.exec_rstwait (hf : s.fsm = .reset) (hcnt : 2 ≤ s.rstCnt) (h : exec .rstwait s = .next t) :
    BlockInv t := by
  cases h
  have hle := (hs.rstCnt_in_reset hf).2
  exact { hs with
    rstCnt_in_reset := fun _ => ⟨Nat.le_sub_of_add_le hcnt, (Nat.sub_le _ _).trans hle⟩
    rstCnt_elsewhere := fun hne => absurd hf hne }

theorem BlockInv.exec_release (hf : s.fsm = .reset) (h : exec .release s = .next t) : BlockInv t := by
  cases h
  have hfit := hs.symidx_fits
  have hph := hs.measure_in_sampler
  have hoe := hs.pinOe_iff
  rw [hf] at hfit hph hoe
  exact { hs with
    fsm_not_reserved := nofun, measure_in_sampler := hph, symidx_fits := hfit, crit_iff := rfl, pinOe_iff := hoe
    pinOut_iff := rfl, rstCnt_in_reset := nofun, rstCnt_elsewhere := fun _ => rfl
    buf_fresh := fun _ => hs.buf_fresh (by rw [hf]; rfl)
    buf_filling := nofun }

theorem BlockInv.exec_toinput (hf : s.fsm = .handshake) (h : exec .toinput s = .next t) : BlockInv t := by
  cases h
  have hfit := hs.symidx_fits
  have hcrit := hs.crit_iff
  have hout := hs.pinOut_iff
  rw [hf] at hfit hcrit hout
  exact { hs with
    fsm_not_reserved := nofun, measure_in_sampler := nofun, cnt_below_ceiling := nofun
    symidx_fits := (Bool.or_eq_true _ _).mpr (.inl hfit)
    crit_iff := hcrit, pinOe_iff := rfl, pinOut_iff := hout, rstCnt_in_reset := nofun
    rstCnt_elsewhere := fun _ => hs.rstCnt_elsewhere (by simp [hf])
    buf_fresh := fun _ => hs.buf_fresh (by rw [hf]; rfl)
    buf_filling := nofun }

theorem BlockInv.exec_synchit (hf : s.fsm = .preamble ∨ s.fsm = .data) (h : exec .synchit s = .next t) :
    BlockInv t := by
  cases h
  exact { hs with
    measure_in_sampler := fun _ => s.fsm.isSampler_iff.mpr hf
    cnt_below_ceiling := fun _ => Nat.zero_le _ }

theorem BlockInv.exec_count (hcnt : s.cnt.toNat ≤ 253) (h : exec .count s = .next t) : BlockInv t := by
  cases h
  exact { hs with
    cnt_below_ceiling := fun _ => (cnt_succ_toNat (hcnt.trans (by decide))).trans_le (Nat.succ_le_succ hcnt) }

theorem BlockInv.exec_validate (hf : s.fsm = .validate) (h : exec .validate s = .next t) : BlockInv t := by
  cases h
  have hfit := hs.symidx_fits
  have hph := hs.measure_in_sampler
  have hcrit := hs.crit_iff
  have hoe := hs.pinOe_iff
  have hout := hs.pinOut_iff
  rw [hf] at hfit hph hcrit hoe hout
  exact { hs with
    fsm_not_reserved := nofun, measure_in_sampler := hph, symidx_fits := hfit, crit_iff := hcrit, pinOe_iff := hoe
    pinOut_iff := hout, rstCnt_in_reset := nofun
    rstCnt_elsewhere := fun _ => hs.rstCnt_elsewhere (by simp [hf])
    buf_fresh := nofun, buf_filling := nofun }

theorem BlockInv.exec_done (hf : s.fsm = .done) (h : exec .done s = .next t) : BlockInv t := by
  cases h
  have hfit := hs.symidx_fits
  have hph := hs.measure_in_sampler
  have hoe := hs.pinOe_iff
  have hout := hs.pinOut_iff
  rw [hf] at hfit hph hoe hout
  exact { hs with
    fsm_not_reserved := nofun, measure_in_sampler := hph
    symidx_fits := (Bool.or_eq_true _ _).mpr (.inr hfit)
    crit_iff := rfl, pinOe_iff := hoe, pinOut_iff := hout, rstCnt_in_reset := nofun
    rstCnt_elsewhere := fun _ => hs.rstCnt_elsewhere (by simp [hf])
    buf_fresh := nofun, buf_filling := nofun }

end

/-! ### The end of a symbol -/

/-- What the record of `Complete` leaves of R45 (i), for a symbol that is not past the last (R113). -/
theorem BlockInv.record {s : State} (hs : BlockInv s) (hidx : s.symidx.toNat ≤ 41) (c : Byte) (k : Nat) :
    ∀ e ∈ s.diag.map fun d => d.record c k,
      e.scnt = s.symidx + 1 ∧ (∀ a < Config.traceLen, e.scnt.toNat ≤ a → e.trace.read a = 0) ∧
        e.trace.wf Config.traceLen := by
  intro e he
  obtain ⟨d, hd, rfl⟩ := Option.mem_map.mp he
  have hscnt := hs.scnt_is_symidx d hd
  have hlt : d.scnt.toNat < Config.traceLen := by
    rw [hscnt]
    exact Nat.lt_of_le_of_lt hidx (by decide)
  have hsucc : (d.scnt + 1).toNat = d.scnt.toNat + 1 := by
    rw [BitVec.toNat_add, show (1 : SymIdx).toNat = 1 from rfl]
    rw [hscnt]
    omega
  refine ⟨congrArg (· + 1) hscnt, fun a ha hle => ?_, Diag.record_wf (hs.trace_wf d hd) c k⟩
  rw [d.record_scnt, hsucc] at hle
  rw [d.record_read c k hlt, if_neg (by omega)]
  exact hs.trace_unwritten d hd a ha (by omega)

theorem State.InSampler.symidxFits {s : State} (hs : s.InSampler) : symidxFits s.fsm s.symidx = true := by
  obtain ⟨hf, hidx⟩ | ⟨hf, hlow, hhigh⟩ := hs.awaits
  · have hor : s.symidx = 0 ∨ s.symidx = 1 := by
      simp only [← BitVec.toNat_inj, show (0 : SymIdx).toNat = 0 from rfl, show (1 : SymIdx).toNat = 1 from rfl]
      omega
    simpa [hf, Machine.symidxFits] using hor
  · simp [hf, Machine.symidxFits, hlow, hhigh]

/-- The end of a symbol keeps the invariant, once its next state and the buffer it leaves are right (R113, R135, R151). -/
theorem BlockInv.symbol_ended {s : State} (hs : BlockInv s) (hf : s.fsm = .preamble ∨ s.fsm = .data) {f : Fsm}
    (hnext : f = .preamble ∨ f = .data ∨ f = .validate) {b : Memory} (c : Byte) (k : Nat)
    (hfits : symidxFits f (s.symidx + 1) = true)
    (hfresh : f.bufferFresh = true → ∀ a < Config.bufLen, b.read a = 0)
    (hfill : f = .data →
      (b.read (((s.symidx + 1).toNat - 2) / 8)).toNat < 2 ^ (((s.symidx + 1).toNat - 2) % 8) ∧
      ∀ a < Config.bufLen, ((s.symidx + 1).toNat - 2) / 8 < a → b.read a = 0)
    (hwf : b.wf Config.bufLen) :
    BlockInv { s with
      fsm := f, ph := .sync, cnt := c, symidx := s.symidx + 1, buf := b, diag := s.diag.map fun d => d.record c k } := by
  have hrec := hs.record (hs.inSampler hf).symidx_le c k
  have hcrit := hs.crit_iff
  have hoe := hs.pinOe_iff
  have hout := hs.pinOut_iff
  have hreset : s.fsm ≠ .reset := by obtain hf | hf := hf <;> simp [hf]
  have hsame : s.fsm.inCritical = true ∧ s.fsm ≠ .handshake := by obtain hf | hf := hf <;> simp [hf, Fsm.inCritical]
  have hf' : f.inCritical = true ∧ f ≠ .reserved3 ∧ f ≠ .reset ∧ f ≠ .handshake := by
    obtain rfl | rfl | rfl := hnext <;> decide
  obtain ⟨hfcrit, hfrsvd, hfreset, hfhand⟩ := hf'
  exact {
    legal := hs.legal
    fsm_not_reserved := hfrsvd
    measure_in_sampler := nofun
    symidx_fits := hfits
    cnt_below_ceiling := nofun
    crit_iff := by rw [hcrit, hfcrit, hsame.1]
    pinOe_iff := by simp [hoe, hreset, hsame.2, hfreset, hfhand]
    pinOut_iff := by simp [hout, hreset, hfreset]
    rstCnt_in_reset := fun h => absurd h hfreset
    rstCnt_elsewhere := fun _ => hs.rstCnt_elsewhere hreset
    buf_fresh := hfresh
    buf_filling := hfill
    scnt_is_symidx := fun e he => (hrec e he).1
    trace_unwritten := fun e he => (hrec e he).2.1
    buf_wf := hwf
    trace_wf := fun e he => (hrec e he).2.2 }

/-- The preamble leaves the buffer empty for the first data symbol (R135). -/
theorem BlockInv.completePreamble {s : State} (hs : BlockInv s) (hf : s.fsm = .preamble) (c : Byte) :
    BlockInv (s.endTick.completePreamble c) := by
  have hnext := (hs.inSampler (.inl hf)).completePreamble hf c
  have hzero := hs.buf_fresh (by rw [hf]; rfl)
  refine hs.endTick.symbol_ended (.inl hf) (hnext.fsm_eq_or.imp_right .inl) c _ hnext.symidxFits (fun _ => hzero) ?_
    hs.buf_wf
  intro hdata
  have hidx : (s.symidx + 1).toNat ≤ 2 := by
    have hle := (hs.inSampler (.inl hf)).awaits
    have hsucc := (hs.inSampler (.inl hf)).symidx_succ
    simp only [hf, true_and, reduceCtorEq, false_and, or_false] at hle
    omega
  rw [State.endTick_symidx, Nat.sub_eq_zero_of_le hidx]
  refine ⟨?_, fun a ha _ => hzero a ha⟩
  show (s.buf.read 0).toNat < 1
  rw [hzero 0 (by decide)]
  decide

/-- A byte that has taken `k` symbols since it was 0 takes the next: one bit more (R45 (h), R150). -/
theorem shiftByte_lt {b : Byte} {k : Nat} (hb : b.toNat < 2 ^ k) (sym : Bool) : (shiftByte b sym).toNat < 2 ^ (k + 1) := by
  have hsym := sym.toNat_le
  rw [shiftByte_toNat, pow_succ]
  exact (Nat.mod_le _ _).trans_lt (by omega)

/-- The byte being filled and the bytes after it, from one data symbol to the next (R45 (h), R150). -/
theorem filling_succ {m m' : Memory} {n : Nat} {sym : Bool} (hpart : (m.read (n / 8)).toNat < 2 ^ (n % 8))
    (hrest : ∀ a < Config.bufLen, n / 8 < a → m.read a = 0) (hn : (n + 1) / 8 < Config.bufLen)
    (hread : ∀ a, m'.read a = if a = n / 8 then shiftByte (m.read a) sym else m.read a) :
    (m'.read ((n + 1) / 8)).toNat < 2 ^ ((n + 1) % 8) ∧ ∀ a < Config.bufLen, (n + 1) / 8 < a → m'.read a = 0 := by
  constructor
  · by_cases hfull : (n + 1) % 8 = 0
    · rw [hread, if_neg (by omega), hrest _ hn (by omega), hfull]
      decide
    · rw [hread, if_pos (by omega), show (n + 1) / 8 = n / 8 by omega, show (n + 1) % 8 = n % 8 + 1 by omega]
      exact shiftByte_lt hpart sym
  · intro a ha hlt
    rw [hread, if_neg (by omega)]
    exact hrest a ha (by omega)

/-- A data symbol enters the byte being filled; the last one ends the frame (R45 (h), R151). -/
theorem BlockInv.completeData {s : State} (hs : BlockInv s) (hf : s.fsm = .data) (c : Byte) :
    BlockInv (s.endTick.completeData c) := by
  have hin := hs.inSampler (.inr hf)
  obtain ⟨hlow, hhigh⟩ := hs.symidx_of_data hf
  obtain ⟨hpart, hrest⟩ := hs.buf_filling hf
  have hwf := State.shiftIn_wf (s := s.endTick.complete c) hs.buf_wf (classify s.params.threshold c)
  by_cases hlast : s.symidx = 41
  · have hfsm : (s.endTick.completeData c).fsm = .validate := if_pos hlast
    refine hs.endTick.symbol_ended (.inr hf) (.inr (.inr hfsm)) c _ ?_ ?_ ?_ hwf
    · rw [hfsm, State.endTick_symidx, hlast]
      decide
    · rw [hfsm]
      nofun
    · rw [hfsm]
      nofun
  · have hfsm : (s.endTick.completeData c).fsm = .data := (if_neg hlast).trans hf
    have hnext := (hin.completeData hf c).resolve_left (by simp [hfsm])
    have hmore := hnext.symidx_le
    have hsucc : (s.symidx + 1).toNat - 2 = s.symidx.toNat - 2 + 1 := by
      rw [hin.symidx_succ]
      omega
    refine hs.endTick.symbol_ended (.inr hf) (.inr (.inl hfsm)) c _ hnext.symidxFits ?_ (fun _ => ?_) hwf
    · rw [hfsm]
      nofun
    · rw [State.endTick_symidx, hsucc]
      refine filling_succ hpart hrest ?_ (s.endTick.completeData_read c hlow hhigh)
      show _ < 5
      have hle : (s.symidx + 1).toNat ≤ 41 := hmore
      omega

/-! ### Every step, every run -/

/-- Settles O31: by the operation the tick selects, from the state after the tick's inputs are used up. -/
theorem stepKeepsInvariant : Obligations.StepKeepsInvariant := by
  intro s t hs hstep
  obtain ⟨i, hi, h⟩ := step_next hstep
  have hs' := hs.endTick
  cases i with
  | hreset => exact (cleared_of_exec_hreset hs'.legal h).blockInv
  | nop | syncwait =>
    cases h
    exact hs'
  | start => exact (cleared_of_exec_start hs'.legal (hs'.crit_of_idle (s.fetch_start_iff.mp hi).2.1) h).blockInv
  | rstwait =>
    obtain ⟨-, hf, hcnt⟩ := s.fetch_rstwait_iff.mp hi
    exact hs'.exec_rstwait hf hcnt h
  | release =>
    obtain ⟨-, hf, -⟩ := s.fetch_release_iff.mp hi
    exact hs'.exec_release hf h
  | toinput => exact hs'.exec_toinput (s.fetch_toinput_iff.mp hi).2 h
  | rsvd3 => cases h
  | synchit =>
    obtain ⟨-, hf, -⟩ := (s.isSyncWord_selector_iff true).mp (s.fetch_synchit_iff.mp hi)
    exact hs'.exec_synchit hf h
  | count =>
    obtain ⟨-, -, -, -, hcnt⟩ := s.fetch_count_iff.mp hi
    exact hs'.exec_count hcnt h
  | pendP =>
    cases h
    exact hs.completePreamble (s.fetch_pendP_iff.mp hi).2.1 _
  | ovrP =>
    cases h
    exact hs.completePreamble (s.fetch_ovrP_iff.mp hi).2.1 _
  | pendD =>
    cases h
    exact hs.completeData (s.fetch_pendD_iff.mp hi).2.1 _
  | ovrD =>
    cases h
    exact hs.completeData (s.fetch_ovrD_iff.mp hi).2.1 _
  | validate => exact hs'.exec_validate (s.fetch_validate_iff.mp hi).2 h
  | done => exact hs'.exec_done (s.fetch_done_iff.mp hi).2 h

/-- The invariant holds after every run from a state of it. -/
theorem BlockInv.of_runTicks {k : Nat} {s t : State} (hs : BlockInv s) (h : runTicks k s = .next t) : BlockInv t := by
  induction k generalizing s with
  | zero =>
    cases h
    exact hs
  | succ k ih =>
    obtain ⟨u, hstep, hrun⟩ := runTicks_succ_inv h
    exact ih (stepKeepsInvariant s u hs hstep) hrun

/-! ### The counters -/

theorem BlockInv.symidx_le {s : State} (hs : BlockInv s) : s.symidx.toNat ≤ 42 := by
  have hfit := hs.symidx_fits
  cases hf : s.fsm with
  | data => exact (hs.symidx_of_data hf).2.trans (by decide)
  | reserved3 => exact absurd hf hs.fsm_not_reserved
  | idle | preamble =>
    simp only [hf, symidxFits, Bool.or_eq_true, decide_eq_true_eq] at hfit
    obtain h | h := hfit <;> simp [h]
  | reset | handshake | validate | done =>
    simp only [hf, symidxFits, decide_eq_true_eq] at hfit
    simp [hfit]

theorem BlockInv.rstCnt_le {s : State} (hs : BlockInv s) : s.rstCnt ≤ s.params.resetTicks := by
  by_cases hf : s.fsm = .reset
  · exact (hs.rstCnt_in_reset hf).2
  · exact (hs.rstCnt_elsewhere hf).trans_le (Nat.zero_le _)

/-- `W_RST` bits hold `RESET_TICKS` (R10, D33). -/
theorem Params.Legal.lt_two_pow_wRst {p : Params} (h : p.Legal) : p.resetTicks < 2 ^ p.wRst := by
  rw [Params.wRst, if_neg (Nat.one_le_iff_ne_zero.mp h)]
  exact Nat.lt_log2_self

/-- Settles O35: `rst_cnt` is at most `RESET_TICKS`, which its width holds; `scnt` is `symidx`, and no symbol has the index
42. -/
theorem countersStayInRange : Obligations.CountersStayInRange := by
  intro s hs
  refine ⟨hs.rstCnt_le.trans_lt hs.legal.lt_two_pow_wRst, hs.rstCnt_le, hs.symidx_le, fun d hd => ?_⟩
  have hscnt : d.scnt.toNat ≤ 42 := hs.scnt_is_symidx d hd ▸ hs.symidx_le
  exact ⟨hscnt, hs.trace_unwritten d hd 42 (by decide) hscnt⟩

end Sys2Proof.Machine
end

section
/-! Proofs about what the Frame Buffer and the Reading hold: the data symbols taken so far, most significant bit first
(20_memory.md R60, R63; 42_assembly_checksum.md R150), and the Reading of the cycle just completed (R61, R70, R153). -/

namespace Sys2Proof.Machine

/-! ### The bits of the data symbols -/

/-- The place of data symbol `j` in its byte once `n` data symbols are in (R60, R150). -/
def symbolPlace (n j : Nat) : Nat := if j / 8 < n / 8 then 7 - j % 8 else n % 8 - 1 - j % 8

theorem State.collectedBit_eq {s : State} {n : Nat} (h : s.symidx.toNat = n + 2) (j : Nat) :
    s.collectedBit j = (s.buf.read (j / 8)).getLsbD (symbolPlace n j) := by
  simp only [State.collectedBit, h, Nat.add_sub_cancel, symbolPlace]

theorem symbolPlace_new (n : Nat) : symbolPlace (n + 1) n = 0 := by
  unfold symbolPlace
  split_ifs <;> omega

theorem symbolPlace_in_full_byte {n j : Nat} (hj : j < n) (hbyte : j / 8 ≠ n / 8) :
    symbolPlace (n + 1) j = symbolPlace n j := by
  unfold symbolPlace
  split_ifs <;> omega

theorem symbolPlace_in_shifted_byte {n j : Nat} (hj : j < n) (hbyte : j / 8 = n / 8) :
    symbolPlace (n + 1) j = symbolPlace n j + 1 ∧ symbolPlace n j < 7 := by
  unfold symbolPlace
  split_ifs <;> omega

/-- The end of a data symbol puts its classification in the symbol's place, and each earlier symbol in the place it has
now (R60, R150). -/
theorem State.completeData_collectedBit {s : State} (c : Byte) (h : 2 ≤ s.symidx.toNat) (h' : s.symidx.toNat ≤ 41)
    {j : Nat} (hj : j + 2 ≤ s.symidx.toNat) :
    (s.completeData c).collectedBit j =
      if j + 2 = s.symidx.toNat then classify s.params.threshold c else s.collectedBit j := by
  obtain ⟨n, hn⟩ := Nat.exists_eq_add_of_le' h
  have hidx : (s.completeData c).symidx.toNat = n + 1 + 2 := by
    show (s.symidx + 1).toNat = _
    rw [BitVec.toNat_add, show (1 : SymIdx).toNat = 1 from rfl]
    omega
  have hread := s.completeData_read c h h' (j / 8)
  rw [hn, Nat.add_sub_cancel] at hread
  rw [State.collectedBit_eq hidx, State.collectedBit_eq hn, hread]
  obtain hnew | hold : j = n ∨ j < n := by omega
  · rw [hnew, if_pos rfl, if_pos hn.symm, symbolPlace_new, shiftByte_bit _ _ 0 (by decide), if_pos rfl]
  rw [if_neg (by omega : ¬ j + 2 = s.symidx.toNat)]
  by_cases hbyte : j / 8 = n / 8
  · obtain ⟨hplace, hlt⟩ := symbolPlace_in_shifted_byte hold hbyte
    rw [if_pos hbyte, hplace, shiftByte_bit _ _ _ (Nat.succ_lt_succ hlt), if_neg (Nat.succ_ne_zero _), Nat.succ_sub_one]
  · rw [if_neg hbyte, symbolPlace_in_full_byte hold hbyte]

/-- The recorded count of the symbol that ends joins those of the earlier symbols (R63, R113). -/
theorem assemblyInv_completeData {s : State} (hs : BlockInv s) (ha : AssemblyInv s) (hf : s.fsm = .data) (c : Byte) :
    AssemblyInv (s.endTick.completeData c) := by
  obtain ⟨hlow, hhigh⟩ := hs.symidx_of_data hf
  intro e he j hj hlt
  obtain ⟨d, hd, rfl⟩ := Option.mem_map.mp he
  have hscnt : d.scnt = s.symidx := hs.scnt_is_symidx d hd
  have hle : j + 2 ≤ s.symidx.toNat := by
    have hsucc : (s.endTick.completeData c).symidx.toNat = s.symidx.toNat + 1 := (hs.inSampler (.inr hf)).symidx_succ
    omega
  have hbit := s.endTick.completeData_collectedBit c hlow hhigh hle
  have hrec := d.record_read c s.endTick.tick (hscnt ▸ Nat.lt_of_le_of_lt hhigh (by decide)) (j + 2)
  rw [hbit, hrec, hscnt]
  by_cases hnew : j + 2 = s.symidx.toNat
  · rw [State.endTick_symidx, if_pos hnew, if_pos hnew]
    rfl
  · rw [State.endTick_symidx, if_neg hnew, if_neg hnew]
    exact ha d hd j hj (Nat.lt_of_le_of_ne hle hnew)

/-- A preamble symbol is no data symbol (R45 (c)). -/
theorem assemblyInv_completePreamble {s : State} (hs : BlockInv s) (hf : s.fsm = .preamble) (c : Byte) :
    AssemblyInv (s.endTick.completePreamble c) := by
  have hin := hs.inSampler (.inl hf)
  have hidx : (s.endTick.completePreamble c).symidx.toNat = s.symidx.toNat + 1 := hin.symidx_succ
  have hpre := hin.awaits
  simp only [hf, true_and, reduceCtorEq, false_and, or_false] at hpre
  exact assemblyInv_of_symidx_le (by omega)

/-- Settles O32: a cleared cycle has no data symbol; an operation that ends no symbol touches neither the buffer nor the
trace; and the end of a symbol adds one place and one count. -/
theorem stepKeepsAssembly : Obligations.StepKeepsAssembly := by
  intro s t hs ha hstep
  obtain ⟨i, hi, h⟩ := step_next hstep
  cases i with
  | hreset | start =>
    cases h
    exact assemblyInv_of_symidx_le (Nat.zero_le _)
  | rsvd3 => cases h
  | nop | rstwait | release | toinput | syncwait | synchit | count | validate | done =>
    cases h
    exact ha
  | pendP =>
    cases h
    exact assemblyInv_completePreamble hs (s.fetch_pendP_iff.mp hi).2.1 _
  | ovrP =>
    cases h
    exact assemblyInv_completePreamble hs (s.fetch_ovrP_iff.mp hi).2.1 _
  | pendD =>
    cases h
    exact assemblyInv_completeData hs ha (s.fetch_pendD_iff.mp hi).2.1 _
  | ovrD =>
    cases h
    exact assemblyInv_completeData hs ha (s.fetch_ovrD_iff.mp hi).2.1 _

/-! ### The Reading -/

/-- While a frame is being taken the host may not sample (R70). -/
theorem readingInv_of_taking {s : State} (h : s.fsm = .preamble ∨ s.fsm = .data ∨ s.fsm = .validate) :
    ReadingInv s := by
  obtain h | h | h := h <;> exact readingInv_of_not_ready (by simp [h]) (by simp [h])

theorem readingInv_completePreamble {s : State} (hf : s.fsm = .preamble) (c : Byte) :
    ReadingInv (s.endTick.completePreamble c) := by
  obtain h | h := s.endTick.completePreamble_fsm_eq_or c
  · exact readingInv_of_taking (.inl (h.trans hf))
  · exact readingInv_of_taking (.inr (.inl h))

theorem readingInv_completeData {s : State} (hf : s.fsm = .data) (c : Byte) :
    ReadingInv (s.endTick.completeData c) := by
  obtain h | h := s.endTick.completeData_fsm_eq_or c
  · exact readingInv_of_taking (.inr (.inl (h.trans hf)))
  · exact readingInv_of_taking (.inr (.inr h))

/-- Settles O33: HRESET clears `valid`; NOP and DONE leave what the host may sample as it is; VALIDATE writes the Reading
from the buffer; and after every other operation the host may not sample. -/
theorem stepKeepsReadingCurrent : Obligations.StepKeepsReadingCurrent := by
  intro s t hs hr hstep
  obtain ⟨i, hi, h⟩ := step_next hstep
  cases i with
  | rsvd3 => cases h
  | hreset =>
    cases h
    exact readingInv_of_not_ready nofun fun _ => rfl
  | nop =>
    cases h
    exact hr
  | start | release | toinput =>
    cases h
    exact readingInv_of_not_ready nofun nofun
  | rstwait =>
    cases h
    obtain ⟨-, hf, -⟩ := s.fetch_rstwait_iff.mp hi
    exact readingInv_of_not_ready (by simp [hf]) (by simp [hf])
  | syncwait =>
    cases h
    obtain ⟨-, hf, -⟩ := (s.isSyncWord_selector_iff false).mp (s.fetch_syncwait_iff.mp hi)
    exact readingInv_of_taking (hf.imp_right .inl)
  | synchit =>
    cases h
    obtain ⟨-, hf, -⟩ := (s.isSyncWord_selector_iff true).mp (s.fetch_synchit_iff.mp hi)
    exact readingInv_of_taking (hf.imp_right .inl)
  | count =>
    cases h
    obtain ⟨-, hf, -⟩ := s.fetch_count_iff.mp hi
    exact readingInv_of_taking (hf.imp_right .inl)
  | pendP =>
    cases h
    exact readingInv_completePreamble (s.fetch_pendP_iff.mp hi).2.1 _
  | ovrP =>
    cases h
    exact readingInv_completePreamble (s.fetch_ovrP_iff.mp hi).2.1 _
  | pendD =>
    cases h
    exact readingInv_completeData (s.fetch_pendD_iff.mp hi).2.1 _
  | ovrD =>
    cases h
    exact readingInv_completeData (s.fetch_ovrD_iff.mp hi).2.1 _
  | validate =>
    have hf := (s.fetch_validate_iff.mp hi).2
    have hread := readingIsOfBuffer_of_exec_validate h
    have hidx := hs.symidx_fits
    rw [hf] at hidx
    cases h
    exact fun _ => ⟨rfl, of_decide_eq_true hidx, hread⟩
  | done =>
    have hf := (s.fetch_done_iff.mp hi).2
    cases h
    exact fun _ => hr (s.readingReady_iff.mpr (.inl hf))

/-- The whole frame is in: every data symbol stands in its byte, the first in bit 7 (R60). -/
theorem State.collectedBit_of_whole_frame {s : State} (h : s.symidx = 42) {j : Nat} (hj : j < 40) :
    s.collectedBit j = (s.buf.read (j / 8)).getLsbD (7 - j % 8) := by
  have hn : s.symidx.toNat = 40 + 2 := by rw [h]; rfl
  rw [State.collectedBit_eq hn, symbolPlace, if_pos (by omega)]

/-- Bit `15 - j` of a big-endian pair is bit `7 - j mod 8` of its first or its second byte (R61). -/
theorem bigEndian_bit (hi lo : Byte) {j : Nat} (hj : j < 16) :
    (bigEndian hi lo).getLsbD (15 - j) = (if j < 8 then hi else lo).getLsbD (7 - j % 8) := by
  rw [bigEndian, BitVec.getLsbD_append]
  by_cases hhigh : j < 8
  · rw [if_neg (by omega), if_pos hhigh, show 15 - j - 8 = 7 - j % 8 by omega]
  · rw [if_pos (by omega), if_neg hhigh, show 15 - j = 7 - j % 8 by omega]

/-- A field of the Reading that is a pair of buffer bytes holds sixteen data symbols in a row, the first in bit 15 (R60,
R61). -/
theorem State.field_bit_eq_collectedBit {s : State} (h : s.symidx = 42) {w : Word16} {i j : Nat} (hi : i < 2)
    (hw : w.toNat = 256 * (s.buf.read (2 * i)).toNat + (s.buf.read (2 * i + 1)).toNat) (hj : j < 16) :
    w.getLsbD (15 - j) = s.collectedBit (16 * i + j) := by
  have hpair : w = bigEndian (s.buf.read (2 * i)) (s.buf.read (2 * i + 1)) :=
    BitVec.eq_of_toNat_eq (hw.trans (bigEndian_toNat _ _).symm)
  rw [hpair, bigEndian_bit _ _ hj, State.collectedBit_of_whole_frame h (by omega),
    show (16 * i + j) % 8 = j % 8 by omega]
  by_cases hhigh : j < 8
  · rw [if_pos hhigh, show (16 * i + j) / 8 = 2 * i by omega]
  · rw [if_neg hhigh, show (16 * i + j) / 8 = 2 * i + 1 by omega]

/-- Settles O34: a ready Reading is that of the buffer, whose bits are the classifications of the recorded counts. -/
theorem readyReadingIsRecordedFrame : Obligations.ReadyReadingIsRecordedFrame := by
  intro s d ha hr hd hready j hj
  obtain ⟨-, hidx, hhum, htemp, -⟩ := hr hready
  have hcount (n : Nat) (hn : n < 40) : s.collectedBit n = classify s.params.threshold (d.trace.read (n + 2)) :=
    ha d hd n hn (by rw [hidx]; exact Nat.add_lt_add_right hn 2)
  rw [State.field_bit_eq_collectedBit hidx (i := 0) (by decide) hhum hj, hcount _ (by omega),
    State.field_bit_eq_collectedBit hidx (i := 1) (by decide) htemp hj, hcount _ (by omega)]
  constructor
  · rw [show 16 * 0 + j + 2 = 2 + j by omega]
  · rw [show 16 * 1 + j + 2 = 18 + j by omega]

theorem State.done_iff (s : State) : s.done = true ↔ s.fsm = .done := decide_eq_true_iff

/-- From the state DONE the tick leads to IDLE and closes the critical section, by DONE or by HRESET (R137, R200). -/
theorem step_of_done {s : State} (hf : s.fsm = .done) : ∃ t, step s = .next t ∧ t.fsm = .idle ∧ t.crit = false := by
  cases hrst : s.inputs.rst with
  | true => exact ⟨_, step_of_fetch (s.fetch_hreset_iff.mpr hrst), rfl, rfl⟩
  | false => exact ⟨_, step_of_fetch (s.fetch_done_iff.mpr ⟨hrst, hf⟩), rfl, rfl⟩

theorem eq_validate_of_done_mem_fsmEdges (i : Instr) (h : (i, Fsm.done) ∈ fsmEdges) : i = .validate := by
  revert h
  cases i <;> decide

/-- Only VALIDATE leads to the state DONE (R139). -/
theorem fetch_validate_of_step_to_done {s t : State} (hstep : step s = .next t) (ht : t.fsm = .done) :
    s.fetch = .ok .validate := by
  obtain ⟨i, hi, h⟩ := step_next hstep
  obtain hkeep | hedge := exec_fsm h
  · obtain ⟨u, hstep', hu, -⟩ := step_of_done (s := s) (hkeep.symm.trans ht)
    cases hstep.symm.trans hstep'
    exact absurd (ht.symm.trans hu) nofun
  · rw [hi, eq_validate_of_done_mem_fsmEdges i (ht ▸ hedge)]

/-- Settles O40: only VALIDATE's edge enters DONE, and the Reading it leaves is that of the buffer; from DONE the tick
leads to IDLE. -/
theorem doneLastsOneTick : Obligations.DoneLastsOneTick := by
  constructor
  · intro s t _ hstep hdone
    have hfetch := fetch_validate_of_step_to_done hstep (t.done_iff.mp hdone)
    rw [step_of_fetch hfetch] at hstep
    exact ⟨hfetch, readingIsOfBuffer_of_exec_validate hstep⟩
  · intro s hdone
    obtain ⟨t, hstep, ht, hcrit⟩ := step_of_done (s.done_iff.mp hdone)
    exact ⟨t, hstep, by simp [State.done, ht], by simp [State.busy, ht], hcrit⟩

end Sys2Proof.Machine
end

section
/-! Proofs about the operation map (30_encoding.md R95, R96): the decoder answers the one row that admits a word, and the
encoder writes a word of that row. -/

namespace Sys2Proof

theorem decode_iff_admits (i : Instr) (w : Byte) : decode w = .ok i ↔ i.row.admits w = true := by
  cases i with
  | hreset => exact Laws.RowWords.hreset w
  | nop => exact Laws.RowWords.nop w
  | start => exact Laws.RowWords.start w
  | rstwait => exact Laws.RowWords.rstwait w
  | release => exact Laws.RowWords.release w
  | toinput => exact Laws.RowWords.toinput w
  | rsvd3 => exact Laws.RowWords.rsvd3 w
  | syncwait => exact Laws.RowWords.syncwait w
  | synchit => exact Laws.RowWords.synchit w
  | count => exact Laws.RowWords.count w
  | pendP => exact Laws.RowWords.pendP w
  | ovrP => exact Laws.RowWords.ovrP w
  | pendD => exact Laws.RowWords.pendD w
  | ovrD => exact Laws.RowWords.ovrD w
  | validate => exact Laws.RowWords.validate w
  | done => exact Laws.RowWords.done w

/-- The decoder answers the row that passes the test of R95. -/
theorem decode_iff_masked (i : Instr) (w : Byte) : decode w = .ok i ↔ w &&& i.row.mask = i.row.pattern := by
  rw [decode_iff_admits, Row.admits, beq_iff_eq]

/-- Settles O24: the decoder is total, and answers one operation for a word. -/
theorem oneRowPerSelectorWord : Obligations.OneRowPerSelectorWord := by
  refine ⟨fun w i => decode_iff_masked i w, fun w => ?_⟩
  obtain ⟨i, hi⟩ := Machine.decode_total w
  exact ⟨i, hi, fun j hj => Except.ok.inj (((decode_iff_masked j w).mpr hj).symm.trans hi)⟩

/-- Settles O25: each word is looked up in the operation map. -/
theorem writtenOutWordsDecode : Obligations.WrittenOutWordsDecode := by
  unfold Obligations.WrittenOutWordsDecode
  decide

/-- No match word has a bit outside its mask (R96). -/
theorem Instr.pattern_masked (i : Instr) : i.row.pattern &&& i.row.mask = i.row.pattern := by
  cases i <;> decide

/-- Masking takes an encoded word's filling away and leaves the match word (R95). -/
theorem encodeWith_masked (i : Instr) (fill : Byte) : encodeWith i fill &&& i.row.mask = i.row.pattern := by
  have hfill (p m : Byte) : (p ||| (fill &&& ~~~m)) &&& m = p &&& m := by
    ext k hk
    cases hm : m[k] <;> simp [hm]
  rw [encodeWith, hfill, i.pattern_masked]

/-- A word is its match word with its own ignored bits (R95). -/
theorem encodeWith_self {i : Instr} {w : Byte} (h : w &&& i.row.mask = i.row.pattern) : encodeWith i w = w := by
  rw [encodeWith, ← h]
  ext k hk
  cases hm : i.row.mask[k] <;> simp [hm]

/-- Settles O26: an encoded word passes its row's test, and a word that passes a row's test is filled with its own bits. -/
theorem decodeInvertsEncode : Obligations.DecodeInvertsEncode := by
  have hfill (i : Instr) (fill : Byte) : decode (encodeWith i fill) = .ok i :=
    (decode_iff_masked i _).mpr (encodeWith_masked i fill)
  exact ⟨hfill, fun i => hfill i 0, fun w i h => encodeWith_self ((decode_iff_masked i w).mp h)⟩

end Sys2Proof

namespace Sys2Proof.Machine

/-- Settles O29: the operation map and the table of R139 pick the same operation. -/
theorem selectorMapEqualsRelation : Obligations.SelectorMapEqualsRelation := State.fetch_eq_sequencerOp

/-- Settles O27: the step is the decoded operation's meaning after the end of the tick, which writes the model's own two
fields. -/
theorem stepRunsSelectedOperation : Obligations.StepRunsSelectedOperation :=
  fun _ _ hdecode _ => ⟨step_of_fetch hdecode, rfl⟩

end Sys2Proof.Machine
end

section
/-! Proofs about what an operation writes (10_state.md R26, 60_exceptions.md R175, R176, R182) and what the output ports
read (10_state.md R34, R35). -/

namespace Sys2Proof.Machine

/-! ### The write sets -/

/-- Settles O36: by the operation, then by the column; a column outside the operation's row reads the same by the lemma of
its field. -/
theorem operationsKeepTheirWriteSets : Obligations.OperationsKeepTheirWriteSets := by
  intro i s t h c hc
  cases i with
  | rsvd3 => cases h
  | hreset => cases c <;> exact absurd (by decide) hc
  | nop | start | rstwait | release | toinput | syncwait | synchit | count | validate | done =>
    cases h
    cases c <;> simp_all [writeSet, Column.same]
  | pendP | ovrP =>
    cases h
    cases c <;> simp_all [writeSet, Column.same, State.completePreamble]
  | pendD | ovrD =>
    cases h
    cases c <;> simp_all [writeSet, Column.same, State.completeData]

/-- An operation that changes a column's registers has the column in its row of R26. -/
theorem mem_writeSet_of_exec {i : Instr} {s t : State} (h : exec i s = .next t) (c : Column) (hc : ¬ c.same s t) :
    c ∈ writeSet i :=
  by_contra fun hmem => hc (operationsKeepTheirWriteSets i s t h c hmem)

theorem exec_params {i : Instr} {s t : State} (h : exec i s = .next t) : t.params = s.params := by
  cases i <;> cases h <;> rfl

theorem exec_diag_isSome {i : Instr} {s t : State} (h : exec i s = .next t) : t.diag.isSome = s.diag.isSome := by
  cases i with
  | rsvd3 => cases h
  | hreset | start | pendP | ovrP | pendD | ovrD =>
    cases h
    exact Option.isSome_map
  | nop | rstwait | release | toinput | syncwait | synchit | count | validate | done =>
    cases h
    rfl

theorem exec_tick {i : Instr} {s t : State} (h : exec i s = .next t) : t.tick = s.tick := by
  cases i <;> cases h <;> rfl

/-- Settles O37: the parameters and the model's own fields are written by no meaning, and the diagnostic registers are
written only where they are. -/
theorem parametersAreStatic : Obligations.ParametersAreStatic :=
  fun _ _ _ h => ⟨exec_params h, exec_diag_isSome h, exec_pending h, exec_tick h⟩

theorem runTicks_static {k : Nat} {s t : State} (h : runTicks k s = .next t) :
    t.params = s.params ∧ t.diag.isSome = s.diag.isSome := by
  induction k generalizing s with
  | zero =>
    cases h
    exact ⟨rfl, rfl⟩
  | succ k ih =>
    obtain ⟨u, hstep, hrun⟩ := runTicks_succ_inv h
    obtain ⟨i, -, hi⟩ := step_next hstep
    obtain ⟨hparams, hdiag⟩ := ih hrun
    exact ⟨hparams.trans (exec_params (s := s.endTick) hi), hdiag.trans (exec_diag_isSome (s := s.endTick) hi)⟩

/-! ### Who owns an output -/

theorem pad_mem_writeSet (i : Instr) (h : .pinOe ∈ writeSet i ∨ .pinOut ∈ writeSet i) :
    i = .start ∨ i = .release ∨ i = .toinput ∨ i = .hreset := by
  revert h
  cases i <;> decide

theorem crit_mem_writeSet (i : Instr) (h : .crit ∈ writeSet i) : i = .release ∨ i = .done ∨ i = .hreset := by
  revert h
  cases i <;> decide

theorem reading_mem_writeSet (i : Instr) (h : .reading ∈ writeSet i ∨ .valid ∈ writeSet i) :
    i = .validate ∨ i = .hreset := by
  revert h
  cases i <;> decide

/-- Settles O38: a change of a column names an operation with the column in its row, and the rows with it are the owners. -/
theorem ownershipOfOutputs : Obligations.OwnershipOfOutputs := by
  intro s t hstep
  obtain ⟨i, hi, h⟩ := step_next hstep
  have hwrites := mem_writeSet_of_exec h
  simp only [hi, Except.ok.injEq]
  refine ⟨fun hpad => ?_, fun hcrit => crit_mem_writeSet i (hwrites .crit hcrit), fun hreading => ?_⟩
  · exact pad_mem_writeSet i (hpad.imp (hwrites .pinOe) (hwrites .pinOut))
  · refine reading_mem_writeSet i ?_
    simp only [← or_assoc] at hreading
    refine hreading.imp (fun hfield => hwrites .reading fun hsame => ?_) (hwrites .valid)
    obtain ⟨hhum, htemp, hsum⟩ := hsame
    obtain (hne | hne) | hne := hfield
    · exact hne hhum
    · exact hne htemp
    · exact hne hsum

/-- DONE and HRESET close the critical section (R176, R200). -/
theorem crit_false_of_step {s t : State} (hi : s.fetch = .ok .done ∨ s.fetch = .ok .hreset) (hstep : step s = .next t) :
    t.crit = false := by
  obtain hi | hi := hi <;> rw [step_of_fetch hi] at hstep <;> cases hstep <;> rfl

/-- Settles O39: a change of `crit` is its owner's; RELEASE writes 1, and DONE and HRESET write 0. -/
theorem criticalSectionEdges : Obligations.CriticalSectionEdges := by
  intro s t hstep
  obtain ⟨-, howner, -⟩ := ownershipOfOutputs s t hstep
  constructor
  · intro hs ht
    obtain hrelease | hlow := howner (by simp [hs, ht])
    · exact hrelease
    · cases ht.symm.trans (crit_false_of_step hlow hstep)
  · intro hs ht
    obtain hrelease | hlow := howner (by simp [hs, ht])
    · rw [step_of_fetch hrelease] at hstep
      cases hstep
      cases ht
    · exact hlow

/-! ### The output ports -/

/-- Settles O47: no port reads the inputs, the tick, the parameters or the buffer; `busy` and `done` are decided on `fsm`. -/
theorem outputsFollowRegisters : Obligations.OutputsFollowRegisters :=
  fun s _ _ _ _ => ⟨rfl, decide_eq_true_iff, s.done_iff⟩

end Sys2Proof.Machine
end

section
/-! Proofs about what does not influence the block: `pin` outside the sampler and the other inputs under `rst`
(60_exceptions.md R181), the diagnostic registers (R185), `crit` (R180), the Reading (42_assembly_checksum.md R157) and, for
START, the cycles before it. -/

namespace Sys2Proof.Machine

/-! ### Inputs -/

/-- Only in the sampler states does the table of R139 look at `pin`. -/
theorem sequencerOp_pin_of_not_sampler {s : State} {x : Inputs} {rest : List Inputs} (p : Bool)
    (hp : s.pending = x :: rest) (hpre : s.fsm ≠ .preamble) (hdata : s.fsm ≠ .data) :
    sequencerOp { s with pending := { x with pin := p } :: rest } = sequencerOp s := by
  unfold sequencerOp
  rw [State.inputs_of_pending hp, State.inputs_of_pending rfl]
  cases hf : s.fsm with
  | preamble => exact absurd hf hpre
  | data => exact absurd hf hdata
  | idle | reset | handshake | reserved3 | validate | done => rfl

/-- Settles O41: a tick outside the sampler selects its operation without `pin`, and the inputs of the tick are used up with
it. -/
theorem pinIgnoredOutsideSampler : Obligations.PinIgnoredOutsideSampler := by
  intro s x rest p hp hpre hdata
  refine step_congr (sequencerOp_pin_of_not_sampler p hp hpre hdata) ?_
  simp [State.endTick, hp]

theorem sequencerOp_of_rst {s : State} (h : s.inputs.rst = true) : sequencerOp s = .hreset := if_pos h

/-- Settles O43: `rst` alone selects HRESET, and the inputs of the tick are used up with it. -/
theorem resetBeatsOtherInputs : Obligations.ResetBeatsOtherInputs := by
  intro s x rest b p hp hx
  have hrst : s.inputs.rst = true := by rw [State.inputs_of_pending hp, hx]
  refine ⟨step_of_fetch (s.fetch_hreset_iff.mpr hrst), step_congr ?_ ?_⟩
  · rw [sequencerOp_of_rst hrst, sequencerOp_of_rst rfl]
  · simp [State.endTick, hp]

/-! ### Registers that nothing reads -/

theorem exec_withoutDiag (i : Instr) (s : State) :
    exec i s.withoutDiag = mapNext State.withoutDiag (exec i s) := by
  cases i <;> rfl

/-- Settles O44: no operation's selection or meaning reads the diagnostic registers but to write them. -/
theorem diagnosticsDoNotInterfere : Obligations.DiagnosticsDoNotInterfere := by
  intro s
  have hop : sequencerOp s.withoutDiag = sequencerOp s := rfl
  rw [step_of_fetch s.fetch_eq_sequencerOp, step_of_fetch s.withoutDiag.fetch_eq_sequencerOp, hop]
  exact exec_withoutDiag _ s.endTick

theorem exec_crit (i : Instr) (s : State) (b : Bool) :
    mapNext State.leaveCritical (exec i { s with crit := b }) = mapNext State.leaveCritical (exec i s) := by
  cases i <;> rfl

/-- Settles O57: no operation's selection or meaning reads `crit`. -/
theorem critInfluencesNothing : Obligations.CritInfluencesNothing := by
  intro s b
  have hop : sequencerOp { s with crit := b } = sequencerOp s := rfl
  rw [step_of_fetch s.fetch_eq_sequencerOp, step_of_fetch (State.fetch_eq_sequencerOp _), hop]
  exact exec_crit _ s.endTick b

/-- A state with another Reading and another `valid`. -/
def State.withReading (s : State) (hum temp : Word16) (sum v : Bool) : State :=
  { s with humidity := hum, temperature := temp, checksumValid := sum, valid := v }

/-- HRESET and VALIDATE write the Reading anew; every other operation leaves it and does not read it (R157). -/
theorem exec_withReading {i : Instr} {s t : State} (h : exec i s = .next t) (hum temp : Word16) (sum v : Bool) :
    exec i (s.withReading hum temp sum v) =
      .next (if i = .hreset ∨ i = .validate then t else t.withReading hum temp sum v) := by
  cases i <;> cases h <;> rfl

theorem sameButReading_withReading (s : State) (hum temp : Word16) (sum v : Bool) :
    SameButReading s (s.withReading hum temp sum v) := rfl

/-- Settles O45: the same operation is selected, and it keeps the difference or writes the Reading anew. -/
theorem readingInfluencesNothing : Obligations.ReadingInfluencesNothing := by
  intro s s' t hsame hstep
  obtain ⟨i, hi, h⟩ := step_next hstep
  have hs' : s' = s.withReading s'.humidity s'.temperature s'.checksumValid s'.valid := hsame
  have hi' : s'.fetch = .ok i := by
    rw [hs']
    exact hi
  have hend : s'.endTick = s.endTick.withReading s'.humidity s'.temperature s'.checksumValid s'.valid := by
    rw [hs']
    rfl
  have hstep' := step_of_fetch hi'
  rw [hend, exec_withReading h] at hstep'
  refine ⟨_, hstep', ?_, fun hvalidate => ?_⟩
  · split
    · rfl
    · exact sameButReading_withReading t _ _ _ _
  · rw [hi, Except.ok.injEq] at hvalidate
    exact if_pos (.inr hvalidate)

/-- The diagnostic registers that START leaves do not depend on what they held (R131). -/
theorem map_cleared_congr {o o' : Option Diag} (h : o.isSome = o'.isSome) :
    (o.map fun _ => Diag.cleared) = o'.map fun _ => Diag.cleared := by
  cases o <;> cases o' <;> simp_all

/-- Settles O46: START writes all but `crit`, which is 0 in both, the static parameters and the model's own fields, which
are alike. -/
theorem startForgetsEarlierCycles : Obligations.StartForgetsEarlierCycles := by
  intro s s' hs hs' hf hf' hparams hdiag hpending htick
  refine ⟨_, _, rfl, rfl, ?_⟩
  simp only [SameButReading, State.clearCycle, hparams, hpending, htick, map_cleared_congr hdiag, hs.crit_of_idle hf,
    hs'.crit_of_idle hf']

end Sys2Proof.Machine
end

section
/-! Proofs about runs of waiting and of counting: the reset pulse (41_frame_decoder.md R132), a line that stays low
(40_bit_sampler.md R110, R118), the bounded measure phase (R116) and the end of the frame on a line that is high often
enough (60_exceptions.md R172). -/

namespace Sys2Proof.Machine

/-! ### The countdown -/

/-- A tick of the countdown, the last one with it: no `rst`, the count as far down, and the line and `crit` as R45 (e) and
(f) have them in RESET. -/
theorem BlockInv.runTicks_countdown {s : State} {l rest : List Inputs} (hs : BlockInv s) (hf : s.fsm = .reset)
    (hp : s.pending = l ++ rest) (hl : NoReset l) (hlen : l.length = s.rstCnt) {k : Nat} (hk : k < s.rstCnt) :
    ∃ t, runTicks k s = .next t ∧ t.inputs.rst = false ∧ t.fsm = .reset ∧ t.rstCnt = s.rstCnt - k ∧
      t.lineDrive = some false ∧ t.crit = false := by
  have hcrit := hs.crit_iff
  rw [hf] at hcrit
  rw [← hlen] at hk
  have htake : (l.take k).length = k := List.length_take_of_le hk.le
  have hrun := runTicks_rstwait (l := l.take k) (rest := l[k] :: (l.drop (k + 1) ++ rest)) hf (by omega)
    (by rw [hp, ← List.cons_append, List.getElem_cons_drop, ← List.append_assoc, List.take_append_drop])
    fun x hx => hl x (List.mem_of_mem_take hx)
  rw [htake] at hrun
  exact ⟨_, hrun, hl _ (List.getElem_mem hk), hf, rfl, hs.lineDrive_in_reset hf, hcrit⟩

/-- Settles O7: the count of a tick of the countdown says whether RSTWAIT or RELEASE is selected. -/
theorem rstwaitCountsDown : Obligations.RstwaitCountsDown := by
  refine ⟨fun _ => rfl, State.fetch_rstwait_iff, fun s l rest hs hf hcnt hp hl hlen => ?_⟩
  have hlegal := hs.legal
  rw [Params.Legal, ← hcnt] at hlegal
  rw [← hcnt] at hlen ⊢
  constructor
  · intro k hk
    obtain ⟨t, hrun, hrst, ht, htcnt, hline, hcrit⟩ := hs.runTicks_countdown hf hp hl hlen (k := k) (by omega)
    exact ⟨t, hrun, t.fetch_rstwait_iff.mpr ⟨hrst, ht, by omega⟩, hline, hcrit⟩
  · obtain ⟨t, hrun, hrst, ht, htcnt, hline, hcrit⟩ :=
      hs.runTicks_countdown hf hp hl hlen (k := s.rstCnt - 1) (by omega)
    exact ⟨t, hrun, t.fetch_release_iff.mpr ⟨hrst, ht, by omega⟩, hline, hcrit⟩

/-! ### The sampler -/

/-- Settles O48: each tick is a SYNCWAIT. -/
theorem stuckLowLineHangs : Obligations.StuckLowLineHangs :=
  fun _ _ _ hf hph hp hl hlow => runTicks_syncwait hf hph hp hl hlow

/-- Settles O53: 256 high samples for each symbol still to come are no fewer than the frame needs. -/
theorem cycleEndsIfLineGoesHighOften : Obligations.CycleEndsIfLineGoesHighOften := by
  intro s l rest hs hf hp hl hhigh
  have hgo : s.highsToGo ≤ 256 * (42 - s.symidx.toNat) := Nat.sub_le _ _
  obtain ⟨k, t, hk, hrun, ht, -⟩ := (hs.inSampler hf).runTicks_validate hp hl (hgo.trans hhigh)
  exact ⟨k, t, hk, hrun, ht⟩

theorem step_count {s : State} {x : Inputs} {rest : List Inputs} (hf : s.fsm = .preamble ∨ s.fsm = .data)
    (hph : s.ph = .measure) (hcnt : s.cnt.toNat ≤ 253) (hp : s.pending = x :: rest) (hx : x.rst = false)
    (hhigh : x.pin = true) : step s = .next { s with cnt := s.cnt + 1, pending := rest, tick := s.tick + 1 } :=
  step_of_fetch_pending hp (s.fetch_count_iff.mpr
    ⟨s.inputs_rst_of_pending hp hx, hf, hph, by rw [State.inputs_of_pending hp, hhigh], hcnt⟩)

/-- Each tick of the measure phase ends the symbol or brings the count one nearer to the ceiling (R116). -/
theorem State.InSampler.runTicks_measure {s : State} {l rest : List Inputs} (hs : s.InSampler) (hph : s.ph = .measure)
    (hp : s.pending = l ++ rest) (hl : NoReset l) (hlen : l.length = 255 - s.cnt.toNat) :
    ∃ k t, 1 ≤ k ∧ k ≤ l.length ∧ runTicks k s = .next t ∧ t.ph = .sync ∧ t.symidx = s.symidx + 1 := by
  have hcnt := hs.cnt_below_ceiling hph
  induction l generalizing s with
  | nil =>
    rw [List.length_nil] at hlen
    omega
  | cons x l ih =>
    rw [List.length_cons] at hlen ⊢
    obtain ⟨hx, hl⟩ := List.forall_mem_cons.mp hl
    by_cases hgoes : x.pin = true ∧ s.cnt.toNat ≤ 253
    · obtain ⟨hhigh, hlt⟩ := hgoes
      have hsucc := cnt_succ_toNat hcnt
      have hstep := step_count (rest := l ++ rest) hs.fsm_eq_or hph hlt hp hx hhigh
      obtain ⟨k, t, -, hk, hrun, ht, htidx⟩ :=
        ih (s := { s with cnt := s.cnt + 1, pending := l ++ rest, tick := s.tick + 1 })
          ⟨hs.awaits, fun _ => by simp only; omega⟩ hph rfl hl (by simp only; omega) (by simp only; omega)
      exact ⟨k + 1, t, Nat.succ_pos k, Nat.succ_le_succ hk, (runTicks_succ hstep k).trans hrun, ht, htidx⟩
    · obtain ⟨t, hstep, ht, htidx, -⟩ := hs.step_ends_symbol (s.inputs_rst_of_pending hp hx) hph (by
        rw [State.inputs_of_pending hp]
        cases hpin : x.pin with
        | false => exact .inl rfl
        | true => exact .inr ⟨rfl, by simp only [hpin, true_and] at hgoes; omega⟩)
      exact ⟨1, t, le_refl 1, Nat.succ_pos _, runTicks_one hstep, ht, htidx⟩

/-- Settles O52: the measure phase is one of the sampler, and has `255 - cnt` ticks to the ceiling at the most. -/
theorem measurePhaseIsBounded : Obligations.MeasurePhaseIsBounded := by
  intro s l rest hs hph hp hl hlen
  have hf := s.fsm.isSampler_iff.mp (hs.measure_in_sampler hph)
  rw [← hlen]
  exact (hs.inSampler hf).runTicks_measure hph hp hl hlen

end Sys2Proof.Machine
end

section
/-! Proofs about the symbols of the line: a pulse is one symbol in exactly its samples (30_encoding.md R80,
40_bit_sampler.md R122), and its value is that of its duration where the threshold is calibrated
(70_reset_and_hazards.md R217). -/

namespace Sys2Proof.Machine

/-! ### The samples of a pulse -/

/-- The state `n` ticks later, with `rest` still to come and no register changed. -/
def State.advance (s : State) (rest : List Inputs) (n : Nat) : State := { s with pending := rest, tick := s.tick + n }

/-- The state in the measure phase of a symbol with the count `n` so far. -/
def State.measuring (s : State) (n : Byte) : State := { s with ph := .measure, cnt := n }

/-- The end of a symbol with final count `c`, in either sampler state (R135, R136, R151, R152). -/
def State.completeSymbol (s : State) (c : Byte) : State :=
  if s.fsm = .preamble then s.completePreamble c else s.completeData c

theorem State.completeSymbol_of_preamble {s : State} (hf : s.fsm = .preamble) (c : Byte) :
    s.completeSymbol c = s.completePreamble c := if_pos hf

theorem State.completeSymbol_of_data {s : State} (hf : s.fsm = .data) (c : Byte) :
    s.completeSymbol c = s.completeData c := if_neg (by simp [hf])

/-- The end of a symbol does not read the phase and the count that it writes (R113). -/
theorem State.completeSymbol_measuring (s : State) (n c : Byte) : (s.measuring n).completeSymbol c = s.completeSymbol c :=
  rfl

theorem step_synchit {s : State} {x : Inputs} {rest : List Inputs} (hf : s.fsm = .preamble ∨ s.fsm = .data)
    (hph : s.ph = .sync) (hp : s.pending = x :: rest) (hx : x.rst = false) (hhigh : x.pin = true) :
    step s = .next ((s.measuring 0).advance rest 1) :=
  step_of_fetch_pending hp (s.fetch_synchit_iff.mpr ((s.isSyncWord_selector_iff true).mpr
    ⟨s.inputs_rst_of_pending hp hx, hf, hph, by rw [State.inputs_of_pending hp, hhigh]⟩))

/-- A low sample ends the symbol with the count so far (R135, R151). -/
theorem step_pend {s : State} {x : Inputs} {rest : List Inputs} (hf : s.fsm = .preamble ∨ s.fsm = .data)
    (hph : s.ph = .measure) (hp : s.pending = x :: rest) (hx : x.rst = false) (hlow : x.pin = false) :
    step s = .next ((s.advance rest 1).completeSymbol s.cnt) := by
  have hrst := s.inputs_rst_of_pending hp hx
  have hpin : s.inputs.pin = false := by rw [State.inputs_of_pending hp, hlow]
  obtain hf | hf := hf
  · rw [State.completeSymbol_of_preamble (s := s.advance rest 1) hf]
    exact step_of_fetch_pending hp (s.fetch_pendP_iff.mpr ⟨hrst, hf, hph, hpin⟩)
  · rw [State.completeSymbol_of_data (s := s.advance rest 1) hf]
    exact step_of_fetch_pending hp (s.fetch_pendD_iff.mpr ⟨hrst, hf, hph, hpin⟩)

/-- One more high sample at the ceiling ends the symbol with the count 255 (R136, R152). -/
theorem step_ovr {s : State} {x : Inputs} {rest : List Inputs} (hf : s.fsm = .preamble ∨ s.fsm = .data)
    (hph : s.ph = .measure) (hcnt : 254 ≤ s.cnt.toNat) (hp : s.pending = x :: rest) (hx : x.rst = false)
    (hhigh : x.pin = true) :
    step s = .next ((s.advance rest 1).completeSymbol Config.ceiling) := by
  have hrst := s.inputs_rst_of_pending hp hx
  have hpin : s.inputs.pin = true := by rw [State.inputs_of_pending hp, hhigh]
  obtain hf | hf := hf
  · rw [State.completeSymbol_of_preamble (s := s.advance rest 1) hf]
    exact step_of_fetch_pending hp (s.fetch_ovrP_iff.mpr ⟨hrst, hf, hph, hpin, hcnt⟩)
  · rw [State.completeSymbol_of_data (s := s.advance rest 1) hf]
    exact step_of_fetch_pending hp (s.fetch_ovrD_iff.mpr ⟨hrst, hf, hph, hpin, hcnt⟩)

/-- High samples below the ceiling are counted (R112). -/
theorem runTicks_count {s : State} {n : Byte} {l rest : List Inputs} (hf : s.fsm = .preamble ∨ s.fsm = .data)
    (hcnt : n.toNat + l.length ≤ 254) (hp : s.pending = l ++ rest) (hl : NoReset l) (hhigh : ∀ x ∈ l, x.pin = true) :
    runTicks l.length (s.measuring n) = .next ((s.measuring (n + BitVec.ofNat 8 l.length)).advance rest l.length) := by
  induction l generalizing s n with
  | nil =>
    cases hp
    simp only [List.length_nil, BitVec.add_zero]
    rfl
  | cons x l ih =>
    rw [List.length_cons] at hcnt
    obtain ⟨hx, hl⟩ := List.forall_mem_cons.mp hl
    obtain ⟨hxhigh, hhigh⟩ := List.forall_mem_cons.mp hhigh
    have hsucc : (n + 1).toNat = n.toNat + 1 := cnt_succ_toNat (by omega)
    have hstep : step (s.measuring n) = .next ((s.advance (l ++ rest) 1).measuring (n + 1)) :=
      step_count hf rfl (show n.toNat ≤ 253 by omega) hp hx hxhigh
    rw [List.length_cons, runTicks_succ hstep, ih (s := s.advance (l ++ rest) 1) hf (by omega) rfl hl hhigh,
      Nat.add_comm l.length, BitVec.ofNat_add, ← BitVec.add_assoc]
    simp only [State.advance, State.measuring, Nat.add_assoc]
    rfl

theorem pins_eq_replicate_iff {ins : List Inputs} {n : Nat} {b : Bool} :
    ins.map Inputs.pin = List.replicate n b ↔ ins.length = n ∧ ∀ x ∈ ins, x.pin = b := by
  rw [List.eq_replicate_iff, List.length_map, List.forall_mem_map]

/-- The separator, the sync hit and the counted samples bring the count to `c` (R80). -/
theorem runTicks_rise {s : State} {l c : Nat} {ins rest : List Inputs} (hf : s.fsm = .preamble ∨ s.fsm = .data)
    (hph : s.ph = .sync) (hc : c ≤ 254) (hl : NoReset ins)
    (hpins : ins.map Inputs.pin = List.replicate l false ++ List.replicate (c + 1) true) (hp : s.pending = ins ++ rest) :
    runTicks ins.length s = .next ((s.measuring (BitVec.ofNat 8 c)).advance rest ins.length) := by
  obtain ⟨lows, highs, rfl, hlows, hhighs⟩ := List.map_eq_append_iff.mp hpins
  obtain ⟨-, hlow⟩ := pins_eq_replicate_iff.mp hlows
  obtain ⟨hlen, hhigh⟩ := pins_eq_replicate_iff.mp hhighs
  obtain _ | ⟨x, highs⟩ := highs
  · cases hlen
  rw [List.length_cons, Nat.add_right_cancel_iff] at hlen
  obtain ⟨hll, hlh⟩ := List.forall_mem_append.mp hl
  obtain ⟨hx, hlh⟩ := List.forall_mem_cons.mp hlh
  obtain ⟨hxhigh, hhigh⟩ := List.forall_mem_cons.mp hhigh
  have hwait : runTicks lows.length s = .next (s.advance (x :: (highs ++ rest)) lows.length) :=
    runTicks_syncwait hf hph (by rw [hp, List.append_assoc]; rfl) hll hlow
  have hhit : step (s.advance (x :: (highs ++ rest)) lows.length) =
      .next ((s.advance (highs ++ rest) (lows.length + 1)).measuring 0) := step_synchit hf hph rfl hx hxhigh
  have hcount := runTicks_count (s := s.advance (highs ++ rest) (lows.length + 1)) (n := 0) hf
    (by rw [hlen]; simpa using hc) rfl hlh hhigh
  rw [List.length_append, runTicks_add hwait, List.length_cons, runTicks_succ hhit, hcount, hlen, zero_add]
  simp only [State.advance, State.measuring, Nat.add_assoc, Nat.add_comm 1]

/-- The samples of a pulse are those that bring the count up, and the one that ends the symbol: a low sample, or at the
ceiling a high one (R80). -/
theorem pulsePins_eq {l c : Nat} (hc : c ≤ 255) :
    pulsePins l c = List.replicate l false ++ List.replicate (min c 254 + 1) true ++ [decide (c = 255)] := by
  obtain hlt | rfl := Nat.lt_or_eq_of_le hc
  · simp [pulsePins, hlt, hlt.ne, Nat.le_of_lt_succ hlt]
  · rw [pulsePins, if_neg (lt_irrefl _), List.append_nil, List.replicate_succ', ← List.append_assoc]
    rfl

/-- A symbol of the line is measured in exactly its samples, and then ends with its count (R80, R122). -/
theorem runTicks_pulse {s : State} {l c : Nat} {ins rest : List Inputs} (hf : s.fsm = .preamble ∨ s.fsm = .data)
    (hph : s.ph = .sync) (hc : c ≤ 255) (hl : NoReset ins) (hpins : ins.map Inputs.pin = pulsePins l c)
    (hp : s.pending = ins ++ rest) :
    runTicks ins.length s = .next ((s.advance rest ins.length).completeSymbol (BitVec.ofNat 8 c)) := by
  rw [pulsePins_eq hc] at hpins
  obtain ⟨rise, last, rfl, hrise, hlast⟩ := List.map_eq_append_iff.mp hpins
  obtain ⟨y, rfl, hy⟩ := List.map_eq_singleton_iff.mp hlast
  obtain ⟨hlr, hly⟩ := List.forall_mem_append.mp hl
  have hyrst := hly y (List.mem_singleton_self y)
  have hrun := runTicks_rise hf hph (Nat.min_le_right c 254) hlr hrise (by rw [hp, List.append_assoc])
  rw [List.length_append, List.length_singleton, runTicks_add hrun,
    ← State.completeSymbol_measuring _ (BitVec.ofNat 8 (min c 254))]
  obtain hlt | rfl := Nat.lt_or_eq_of_le hc
  · have hlow : y.pin = false := by simpa [hlt.ne] using hy
    rw [Nat.min_eq_left (Nat.le_of_lt_succ hlt)]
    exact runTicks_one (step_pend hf rfl rfl hyrst hlow)
  · exact runTicks_one
      (step_ovr (s := (s.measuring 254).advance ([y] ++ rest) rise.length) hf rfl (le_refl 254) rfl hyrst hy)

theorem classify_ofNat (th : Fin 255) {c : Nat} (hc : c ≤ 255) : classify th (BitVec.ofNat 8 c) = decide (th.val < c) := by
  rw [classify, BitVec.toNat_ofNat, Nat.mod_eq_of_lt (by omega)]

/-- Settles O50: after the samples the symbol ends with the count `c`, in the sampler state that the block is in. -/
theorem pulseDecodesToSymbol : Obligations.PulseDecodesToSymbol := by
  intro s l c ins rest hs hf hph hc hl hpins hp
  have hrun := runTicks_pulse hf hph hc hl hpins hp
  have hidx := (hs.inSampler hf).awaits
  obtain hf | hf := hf
  · rw [State.completeSymbol_of_preamble (s := s.advance rest ins.length) hf] at hrun
    have hne : s.symidx ≠ 41 := by
      rintro h
      simp [hf, h] at hidx
    refine ⟨_, hrun, ?_, diagRecorded_of_map rfl, fun _ _ => rfl, fun h => by simp [hf] at h⟩
    simp only [hne, if_false, hph]
    rfl
  · rw [State.completeSymbol_of_data (s := s.advance rest ins.length) hf] at hrun
    have hne : s.symidx ≠ 1 := by
      rintro h
      simp [hf, h] at hidx
    have hshift := (s.advance rest ins.length).completeData_bufShifted (BitVec.ofNat 8 c)
    rw [classify_ofNat _ hc] at hshift
    refine ⟨_, hrun, ?_, diagRecorded_of_map rfl, fun h => by simp [hf] at h, fun _ => hshift⟩
    simp only [hne, if_false, hph]
    rfl

end Sys2Proof.Machine
end

section
/-! Proofs about the calibration of the threshold (70_reset_and_hazards.md R217): the value of a pulse is that of its
duration, and a pulse is one symbol. -/

namespace Sys2Proof.Machine

/-! ### The counts of the two durations -/

theorem finalCount_toNat (H : Nat) : (finalCount H).toNat = min (H - 1) 255 := by
  rw [finalCount, BitVec.toNat_ofNat, Nat.mod_eq_of_lt]
  omega

section

variable {p : Params} {tTick t0 t1 H : Nat}

/-- No sampling of a short pulse is counted past the threshold. -/
theorem classify_short (h : Separates p tTick t0 t1) (hH : SeenHigh t0 tTick H) :
    classify p.threshold (finalCount H) = false := by
  obtain ⟨-, hshort, -⟩ := h
  have hle : ¬ p.threshold.val < min (H - 1) 255 := by omega
  rwa [← finalCount_toNat, ← classify_iff, Bool.not_eq_true] at hle

/-- Every sampling of a long pulse is counted past the threshold, which is below the ceiling. -/
theorem classify_long (h : Separates p tTick t0 t1) (hH : SeenHigh t1 tTick H) :
    classify p.threshold (finalCount H) = true := by
  obtain ⟨-, -, hlong⟩ := h
  have hth := p.threshold.isLt
  rw [classify_iff, finalCount_toNat]
  omega

/-- The simpler condition of R217. -/
theorem separates_of_margin (htick : 1 ≤ tTick) (hshort : t0 ≤ p.threshold.val * tTick)
    (hlong : (p.threshold.val + 3) * tTick ≤ t1) : Separates p tTick t0 t1 := by
  have hceil : (t0 + tTick - 1) / tTick < p.threshold.val + 1 := by
    rw [Nat.div_lt_iff_lt_mul htick, Nat.add_mul, Nat.one_mul]
    omega
  have hfloor : p.threshold.val + 3 ≤ t1 / tTick := (Nat.le_div_iff_mul_le htick).mpr hlong
  exact ⟨htick, by omega, by omega⟩

/-- A calibrated pulse has at most the 256 high samples of one symbol (R119). -/
theorem seenHigh_le_of_calibrated (h : Calibrated p tTick t0 t1) (hH : SeenHigh t0 tTick H ∨ SeenHigh t1 tTick H) :
    H ≤ 256 := by
  obtain ⟨⟨htick, hshort, -⟩, hlong⟩ := h
  have hth := p.threshold.isLt
  obtain ⟨-, hH⟩ | ⟨-, hH⟩ := hH
  · omega
  · have hceil : (t1 + tTick - 1) / tTick < 256 + 1 := by
      rw [Nat.div_lt_iff_lt_mul htick]
      omega
    omega

end

/-- Settles O54: both bounds on the samples of a duration carry over to the count, which is one less. -/
theorem calibrationSeparatesPulses : Obligations.CalibrationSeparatesPulses := by
  refine ⟨fun p tTick t0 t1 h => ⟨fun H _ hH => classify_short h hH, fun H _ hH => classify_long h hH⟩,
    fun p tTick t0 t1 => separates_of_margin, fun p tTick t0 t1 h H _ hH => ?_⟩
  have hle := seenHigh_le_of_calibrated h hH
  exact ⟨hle, by rw [finalCount_toNat]; omega⟩

/-! ### One pulse, one symbol -/

/-- What a shift leaves is seen in the buffer alone. -/
theorem BufShifted.congr {s t u : State} {sym : Bool} (h : BufShifted s t sym) (hbuf : u.buf = t.buf) :
    BufShifted s u sym := by
  unfold BufShifted
  rw [hbuf]
  exact h

/-- A low sample after a symbol is a wait for the next one, or falls in the VALIDATE tick: neither touches the symbols
taken. -/
theorem step_low_after_symbol {s : State} {x : Inputs} {rest : List Inputs} (hf : s.fsm = .data ∨ s.fsm = .validate)
    (hph : s.ph = .sync) (hp : s.pending = x :: rest) (hx : x.rst = false) (hlow : x.pin = false) :
    ∃ t, step s = .next t ∧ t.pending = rest ∧ t.symidx = s.symidx ∧ t.ph = .sync ∧ t.cnt = s.cnt ∧ t.buf = s.buf := by
  obtain hf | hf := hf
  · exact ⟨_, step_syncwait (.inr hf) hph hp hx hlow, rfl, rfl, hph, rfl, rfl⟩
  · have hfetch := s.fetch_validate_iff.mpr ⟨s.inputs_rst_of_pending hp hx, hf⟩
    exact ⟨_, step_of_fetch_pending hp hfetch, rfl, rfl, hph, rfl, rfl⟩

/-- A pulse of up to 256 high samples, its separator and the low sample after it are one data symbol (R80, R119). -/
theorem runTicks_high_pulse {s : State} {l H : Nat} {ins rest : List Inputs} (hf : s.fsm = .data) (hph : s.ph = .sync)
    (hH : 1 ≤ H) (hH' : H ≤ 256) (hl : NoReset ins)
    (hpins : ins.map Inputs.pin = List.replicate l false ++ List.replicate H true ++ [false])
    (hp : s.pending = ins ++ rest) :
    ∃ t, runTicks ins.length s = .next t ∧ t.pending = rest ∧ t.symidx = s.symidx + 1 ∧ t.ph = .sync ∧
      t.cnt = finalCount H ∧ BufShifted s t (classify s.params.threshold (finalCount H)) := by
  obtain hlt | rfl := Nat.lt_or_eq_of_le hH'
  · have hpulse : ins.map Inputs.pin = pulsePins l (H - 1) := by
      rw [hpins, pulsePins, if_pos (by omega), Nat.sub_add_cancel hH]
    have hcount : BitVec.ofNat 8 (H - 1) = finalCount H := by rw [finalCount, Nat.min_eq_left (by omega)]
    have hrun := runTicks_pulse (.inr hf) hph (by omega) hl hpulse hp
    rw [State.completeSymbol_of_data (s := s.advance rest ins.length) hf, hcount] at hrun
    exact ⟨_, hrun, rfl, rfl, rfl, rfl, (s.advance rest ins.length).completeData_bufShifted _⟩
  · obtain ⟨pulse, last, rfl, hpulse, hlast⟩ := List.map_eq_append_iff.mp hpins
    obtain ⟨y, rfl, hy⟩ := List.map_eq_singleton_iff.mp hlast
    obtain ⟨hlp, hly⟩ := List.forall_mem_append.mp hl
    have hrun := runTicks_pulse (l := l) (c := 255) (.inr hf) hph (le_refl _) hlp
      (hpulse.trans (List.append_nil _).symm) (by rw [hp, List.append_assoc])
    rw [State.completeSymbol_of_data (s := s.advance ([y] ++ rest) pulse.length) hf] at hrun
    have hnext := (s.advance ([y] ++ rest) pulse.length).completeData_fsm_eq_or (BitVec.ofNat 8 255)
    obtain ⟨t, hstep, htp, hidx, htph, hcnt, hbuf⟩ :=
      step_low_after_symbol (hnext.imp_left (·.trans hf)) rfl rfl (hly y (List.mem_singleton_self y)) hy
    refine ⟨t, ?_, htp, hidx, htph, hcnt, BufShifted.congr ?_ hbuf⟩
    · rw [List.length_append, runTicks_add hrun]
      exact runTicks_one hstep
    · exact (s.advance ([y] ++ rest) pulse.length).completeData_bufShifted _

/-- Settles O55: a calibrated pulse fits into one symbol, whose count has the value of the duration. -/
theorem calibratedPulseIsOneSymbol : Obligations.CalibratedPulseIsOneSymbol := by
  intro s tTick t0 t1 l H ins rest _ hf hph hcal hH hseen hl hpins hp
  have hle := seenHigh_le_of_calibrated hcal hseen
  obtain ⟨t, hrun, htp, hidx, htph, hcnt, hshift⟩ := runTicks_high_pulse hf hph hH hle hl hpins hp
  refine ⟨t, hrun, htp, hidx, htph, ?_, fun hshort => ?_, fun hlong => ?_⟩
  · rw [hcnt, finalCount_toNat]
    omega
  · rwa [classify_short hcal.1 hshort] at hshift
  · rwa [classify_long hcal.1 hlong] at hshift

end Sys2Proof.Machine
end

section
/-! Proof about `decode_frame()` (41_frame_decoder.md R140 to R143): a start and a train of 42 symbols lead through the
reset pulse, the handshake and the sampler to the five bytes of the symbols and their Reading. -/

namespace Sys2Proof.Machine

/-! ### The symbols of a frame, one by one -/

/-- The block is between two symbols and has taken the first `symidx` symbols of the row `pulses`: the data symbols stand
in the Frame Buffer as the classifications of their counts, and with `DIAG` the trace holds the counts. -/
structure State.HasTaken (s : State) (pulses : List (Nat × Nat)) : Prop where
  inv : BlockInv s
  ph_sync : s.ph = .sync
  fsm_taking : s.fsm = .preamble ∨ s.fsm = .data ∨ s.fsm = .validate
  bits : ∀ j < 40, j + 2 < s.symidx.toNat →
    s.collectedBit j = decide (s.params.threshold.val < (pulses.getD (j + 2) (0, 0)).2)
  counts : ∀ d ∈ s.diag, ∀ k < s.symidx.toNat, (d.trace.read k).toNat = (pulses.getD k (0, 0)).2

theorem State.HasTaken.advance {s : State} {pulses : List (Nat × Nat)} (hs : s.HasTaken pulses) (rest : List Inputs)
    (n : Nat) : (s.advance rest n).HasTaken pulses :=
  { hs with inv := { hs.inv with } }

section

variable {s : State} {pulses : List (Nat × Nat)} (hs : s.HasTaken pulses)
include hs

/-- While symbols are to come the block is in its sampler (R45 (c)). -/
theorem State.HasTaken.in_sampler (hidx : s.symidx.toNat < 42) : s.fsm = .preamble ∨ s.fsm = .data := by
  obtain hf | hf | hf := hs.fsm_taking
  · exact .inl hf
  · exact .inr hf
  · have hfit := hs.inv.symidx_fits
    rw [hf] at hfit
    simp [of_decide_eq_true hfit] at hidx

/-- With the whole frame taken the block is in VALIDATE (R45 (c)). -/
theorem State.HasTaken.fsm_validate (hidx : s.symidx = 42) : s.fsm = .validate := by
  obtain hf | hf | hf := hs.fsm_taking
  · exact absurd (hs.inv.inSampler (.inl hf)).symidx_le (by simp [hidx])
  · exact absurd (hs.inv.inSampler (.inr hf)).symidx_le (by simp [hidx])
  · exact hf

/-- The record of a symbol that ends adds its count to those of the symbols before it (R113). -/
theorem State.HasTaken.counts_record (hidx : s.symidx.toNat < 42) {c : Nat} (hc : c ≤ 255)
    (hpulse : (pulses.getD s.symidx.toNat (0, 0)).2 = c) :
    ∀ e ∈ s.diag.map fun d => d.record (BitVec.ofNat 8 c) s.tick, ∀ k < s.symidx.toNat + 1,
      (e.trace.read k).toNat = (pulses.getD k (0, 0)).2 := by
  intro e he k hk
  obtain ⟨d, hd, rfl⟩ := Option.mem_map.mp he
  have hscnt := hs.inv.scnt_is_symidx d hd
  rw [d.record_read _ _ (hscnt ▸ Nat.lt_succ_of_lt hidx), hscnt]
  obtain hold | rfl := Nat.lt_succ_iff_lt_or_eq.mp hk
  · rw [if_neg hold.ne]
    exact hs.counts d hd k hold
  · rw [if_pos rfl, hpulse, BitVec.toNat_ofNat, Nat.mod_eq_of_lt (by omega)]

/-- The end of the next symbol of the row. -/
theorem State.HasTaken.completeSymbol (hidx : s.symidx.toNat < 42) {c : Nat} (hc : c ≤ 255)
    (hpulse : (pulses.getD s.symidx.toNat (0, 0)).2 = c) (hinv : BlockInv (s.completeSymbol (BitVec.ofNat 8 c))) :
    (s.completeSymbol (BitVec.ofNat 8 c)).HasTaken pulses ∧
      (s.completeSymbol (BitVec.ofNat 8 c)).symidx.toNat = s.symidx.toNat + 1 := by
  have hf := hs.in_sampler hidx
  have hin := hs.inv.inSampler hf
  have hsucc := hin.symidx_succ
  have hcounts := hs.counts_record hidx hc hpulse
  rw [← hsucc] at hcounts
  obtain hf | hf := hf
  · rw [State.completeSymbol_of_preamble hf] at hinv ⊢
    have hle := hin.awaits
    simp only [hf, true_and, reduceCtorEq, false_and, or_false] at hle
    have hnext := s.completePreamble_fsm_eq_or (BitVec.ofNat 8 c)
    rw [hf] at hnext
    refine ⟨⟨hinv, rfl, hnext.imp_right .inl, fun j _ hj => ?_, hcounts⟩, hsucc⟩
    change j + 2 < (s.symidx + 1).toNat at hj
    omega
  · rw [State.completeSymbol_of_data hf] at hinv ⊢
    have hle := hs.inv.symidx_of_data hf
    have hnext := s.completeData_fsm_eq_or (BitVec.ofNat 8 c)
    rw [hf] at hnext
    refine ⟨⟨hinv, rfl, .inr hnext, fun j hj hlt => ?_, hcounts⟩, hsucc⟩
    change j + 2 < (s.symidx + 1).toNat at hlt
    rw [State.completeData_collectedBit _ hle.1 hle.2 (by omega)]
    by_cases hnew : j + 2 = s.symidx.toNat
    · rw [if_pos hnew, classify_ofNat _ hc, hnew, hpulse]
      rfl
    · rw [if_neg hnew]
      exact hs.bits j hj (by omega)

end

/-- The rest of the train takes the rest of the row (R80, R103). -/
theorem State.HasTaken.runTicks_train {s : State} {pulses todo : List (Nat × Nat)} {train rest : List Inputs}
    (hs : s.HasTaken pulses) (hlen : pulses.length = 42) (hle : ∀ p ∈ pulses, p.2 ≤ 255)
    (htodo : pulses.drop s.symidx.toNat = todo) (hl : NoReset train) (hpins : train.map Inputs.pin = trainPins todo)
    (hp : s.pending = train ++ rest) :
    ∃ t, runTicks train.length s = .next t ∧ t.HasTaken pulses ∧ t.symidx = 42 ∧ t.pending = rest := by
  induction todo generalizing s train with
  | nil =>
    obtain rfl := List.map_eq_nil_iff.mp hpins
    have hge := List.drop_eq_nil_iff.mp htodo
    have hle42 := hs.inv.symidx_le
    exact ⟨s, rfl, hs, BitVec.eq_of_toNat_eq (show s.symidx.toNat = 42 by omega), hp⟩
  | cons p todo ih =>
    have hidx : s.symidx.toNat < pulses.length := by
      by_contra hge
      simp [List.drop_eq_nil_of_le (Nat.le_of_not_lt hge)] at htodo
    rw [List.drop_eq_getElem_cons hidx, List.cons.injEq] at htodo
    obtain ⟨rfl, htodo⟩ := htodo
    rw [trainPins, List.flatMap_cons] at hpins
    obtain ⟨ins, train, rfl, hpulse, hpins⟩ := List.map_eq_append_iff.mp hpins
    obtain ⟨hli, hlt⟩ := List.forall_mem_append.mp hl
    have hc := hle _ (List.getElem_mem hidx)
    have hget : (pulses.getD s.symidx.toNat (0, 0)).2 = pulses[s.symidx.toNat].2 := by
      rw [List.getD_eq_getElem _ _ hidx]
    rw [hlen] at hidx
    have hrun := runTicks_pulse (hs.in_sampler hidx) hs.ph_sync hc hli hpulse (by rw [hp, List.append_assoc])
    obtain ⟨hu, hnext⟩ := (hs.advance (train ++ rest) ins.length).completeSymbol hidx hc hget (hs.inv.of_runTicks hrun)
    obtain ⟨t, hrest, ht⟩ := ih hu (by rw [hnext]; exact htodo) hlt hpins (by
      rw [runTicks_pending hrun, hp, List.append_assoc, List.drop_left])
    exact ⟨t, by rw [List.length_append, runTicks_add hrun, hrest], ht⟩

/-! ### Before and after the train -/

theorem State.Cleared.hasTaken {s : State} (hs : s.Cleared) (hf : s.fsm = .preamble) (pulses : List (Nat × Nat)) :
    s.HasTaken pulses := by
  have hnone (k : Nat) : ¬ k < s.symidx.toNat := by simp [hs.symidx_zero]
  exact ⟨hs.blockInv, hs.ph_sync, .inl hf, fun j _ hj => absurd hj (hnone _), fun _ _ k hk => absurd hk (hnone k)⟩

/-- START, the reset pulse and the handshake lead an idle block to the sampler with nothing taken, whatever the cycle before
left (R131 to R134). -/
theorem runTicks_to_train {s : State} {x : Inputs} {handshake rest : List Inputs} (pulses : List (Nat × Nat))
    (hlegal : s.params.Legal) (hf : s.fsm = .idle) (hp : s.pending = x :: (handshake ++ rest)) (hx : x.rst = false)
    (hstart : x.start = true) (hl : NoReset handshake) (hlen : handshake.length = s.params.resetTicks + 1) :
    ∃ t, runTicks (1 + s.params.resetTicks + 1) s = .next t ∧ t.HasTaken pulses ∧ t.symidx = 0 ∧ t.pending = rest := by
  obtain rfl | ⟨l, y, rfl⟩ := handshake.eq_nil_or_concat'
  · cases hlen
  rw [List.length_append, List.length_singleton, Nat.add_right_cancel_iff] at hlen
  obtain ⟨hl, hy⟩ := List.forall_mem_append.mp hl
  obtain ⟨u, hstep, huf, hucnt, huparams, huidx, hubuf, hudiag, hup⟩ : ∃ u, step s = .next u ∧ u.fsm = .reset ∧
      u.rstCnt = s.params.resetTicks ∧ u.params = s.params ∧ u.symidx = 0 ∧ u.buf = [] ∧
      (∀ d ∈ u.diag, d = Diag.cleared) ∧ u.pending = l ++ [y] ++ rest :=
    ⟨_, step_of_fetch_pending hp (State.fetch_start_of_pending hf hp hx hstart), rfl, rfl, rfl, rfl, rfl,
      eq_cleared_of_mem_map, rfl⟩
  rw [List.append_assoc] at hup
  have hrelease := runTicks_release huf (hucnt ▸ hlegal) hup hl (hlen.trans hucnt.symm)
  rw [hucnt] at hrelease
  have hrun := (runTicks_add (runTicks_one hstep) s.params.resetTicks).trans hrelease
  refine ⟨_, (runTicks_add hrun 1).trans
    (runTicks_one (step_toinput (rest := rest) rfl rfl (hy y (List.mem_singleton_self y)))), ?_, huidx, rfl⟩
  refine State.Cleared.hasTaken ?_ rfl pulses
  exact {
    legal := huparams ▸ hlegal, fsm_before_data := .inr rfl, ph_sync := rfl, symidx_zero := huidx, buf_empty := hubuf
    diag_cleared := hudiag, crit_iff := rfl, pinOe_iff := rfl, pinOut_iff := rfl, rstCnt_in_reset := nofun
    rstCnt_elsewhere := fun _ => rfl }

/-- The bits of a byte as a number, most significant first (R60). -/
theorem byte_toNat_eq_sum (b : Byte) :
    b.toNat = ((List.range 8).map fun k => if b.getLsbD (7 - k) = true then 2 ^ (7 - k) else 0).sum := by
  revert b
  decide

/-- With the whole frame taken the bytes of the buffer are those of the row (R81, R85). -/
theorem State.HasTaken.read_eq_frameByte {s : State} {pulses : List (Nat × Nat)} (hs : s.HasTaken pulses)
    (hidx : s.symidx = 42) {i : Nat} (hi : i < 5) :
    (s.buf.read i).toNat = frameByte s.params.threshold pulses i := by
  rw [byte_toNat_eq_sum, frameByte]
  congr 1
  refine List.map_congr_left fun k hk => ?_
  have hk8 := List.mem_range.mp hk
  have hbit := hs.bits (8 * i + k) (by omega) (by rw [hidx]; show _ < 42; omega)
  rw [State.collectedBit_of_whole_frame hidx (by omega), show (8 * i + k) / 8 = i by omega,
    show (8 * i + k) % 8 = k by omega, Nat.add_comm (8 * i + k) 2] at hbit
  simp only [hbit, decide_eq_true_eq]

/-- VALIDATE and DONE end the cycle with the Reading of the buffer, and touch neither the buffer nor the trace (R137,
R153). -/
theorem runTicks_reading {s : State} {l rest : List Inputs} (hf : s.fsm = .validate) (hp : s.pending = l ++ rest)
    (hl : NoReset l) (hlen : l.length = 2) :
    ∃ t, runTicks 2 s = .next t ∧ t.fsm = .idle ∧ t.symidx = s.symidx ∧ t.valid = true ∧ t.buf = s.buf ∧
      t.diag = s.diag ∧ t.readingIsOfBuffer ∧ t.pending = rest := by
  obtain ⟨x, y, rfl⟩ := List.length_eq_two.mp hlen
  obtain ⟨hx, hl⟩ := List.forall_mem_cons.mp hl
  obtain ⟨hy, -⟩ := List.forall_mem_cons.mp hl
  have hvalidate := s.fetch_validate_iff.mpr ⟨s.inputs_rst_of_pending hp hx, hf⟩
  obtain ⟨t, hstep, ht, htp, hidx, hvalid, hbuf, hdiag, hread⟩ : ∃ t, step s = .next t ∧ t.fsm = .done ∧
      t.pending = y :: rest ∧ t.symidx = s.symidx ∧ t.valid = true ∧ t.buf = s.buf ∧ t.diag = s.diag ∧
      t.readingIsOfBuffer :=
    ⟨_, step_of_fetch_pending hp hvalidate, rfl, rfl, rfl, rfl, rfl, rfl, readingIsOfBuffer_of_exec_validate rfl⟩
  have hdone := t.fetch_done_iff.mpr ⟨t.inputs_rst_of_pending htp hy, ht⟩
  exact ⟨_, (runTicks_succ hstep 1).trans (runTicks_one (step_of_fetch_pending htp hdone)), rfl, hidx, hvalid, hbuf,
    hdiag, hread, rfl⟩

/-- Settles O51: the run is the start of the cycle, the train with one symbol taken by each pulse, and the writing of the
Reading; the pad and `crit` are as the invariant has them in IDLE. -/
theorem decodeFrameReadsTheFrame : Obligations.DecodeFrameReadsTheFrame := by
  intro s x handshake train tail rest pulses hlegal hf hx hstart hhand hlen hle htrain htail hl hp
  simp only [NoReset, List.forall_mem_append] at hl
  obtain ⟨⟨hlhand, hltrain⟩, hltail⟩ := hl
  obtain ⟨t, hrunt, ht, htidx, htp⟩ := runTicks_to_train (rest := train ++ (tail ++ rest)) pulses hlegal hf
    (by simp [hp]) hx hstart hlhand hhand
  obtain ⟨u, hrunu, hu, huidx, hup⟩ := ht.runTicks_train (todo := pulses) hlen hle (by simp [htidx]) hltrain htrain htp
  obtain ⟨v, hrunv, hvf, hvidx, hvvalid, hvbuf, hvdiag, hvread, hvp⟩ :=
    runTicks_reading (hu.fsm_validate huidx) hup hltail htail
  have hrun : runTicks (1 + s.params.resetTicks + 1 + train.length + 1 + 1) s = .next v := by
    rw [Nat.add_assoc _ 1 1, runTicks_add ((runTicks_add hrunt _).trans hrunu), hrunv]
  have hinv := hu.inv.of_runTicks hrunv
  have hoe := hinv.pinOe_iff
  have hout := hinv.pinOut_iff
  rw [hvf] at hoe hout
  obtain ⟨hparams, hdiag⟩ := runTicks_static hrun
  have huparams : u.params = s.params := (runTicks_static hrunv).1.symm.trans hparams
  have hidx := hvidx.trans huidx
  refine ⟨v, hrun, hvf, hidx, hvvalid, hinv.crit_of_idle hvf, hoe, hout, fun i hi => ?_, hvread, hparams, hdiag, hvp,
    fun d hd => ⟨(hinv.scnt_is_symidx d hd).trans hidx, ?_, fun k hk => ?_⟩⟩
  · rw [hvbuf, hu.read_eq_frameByte huidx hi, huparams]
  · obtain ⟨-, -, -, htrace⟩ := countersStayInRange v hinv
    exact (htrace d hd).2
  · exact hu.counts d (hvdiag ▸ hd) k (by rw [huidx]; exact hk)

end Sys2Proof.Machine
end
